-- ==== Sys2Proof/Word.lean ====
section
/-! DEFINITION. The word type of the CORE and the plain types built from it (spec/00_scope.md R6, R15). -/

namespace Sys2Proof

/-- `Word16`: a 16-bit unsigned word (R6, R15, R22). Bit 0 is the least significant bit. -/
abbrev Word := BitVec 16

/-- The 6-bit operand descriptor `enc[5:0]` (R11, R60). -/
abbrev Desc := BitVec 6

/-- A 3-bit general-register index, 0 to 7 (R11, R20). -/
abbrev RegIdx := BitVec 3

/-- The 11-bit selector `sel = {cmd[4:0], enc[5:0]}` of the opcode table (R61). -/
abbrev Selector := BitVec 11

/-- The memory array as data: the cells that differ from what an unlisted cell reads as, each with its
cell number. The CORE is word addressed and has no bytes (20_memory.md R40, R44), so a cell holds a word
(log 5: DESIGN CHOICE). Its canonical form is `Memory.wf` (Machine/Memory.lean). -/
abbrev Memory := List (Nat × Word)

end Sys2Proof
end

