-- ==== Sys2Proof/Syntax.lean ====
section
/-! DEFINITION. The commands of the CORE as syntax: one constructor of `Instr` per row of
spec/opcode_table.json (66 rows), and the raw form in which the dispatcher presents them. -/

namespace Sys2Proof

/-- The two resolver slots (10_state.md R32): `b` is `slot[0]`, the destination operand, `a` is `slot[1]`,
the source operand (R11). -/
inductive SlotId where
  | b
  | a
  deriving DecidableEq, Repr

/-- The twelve addressing modes of the 6-bit descriptor (30_encoding.md R62, R66 to R77), with the register
index `r = enc[2:0]` or the literal `n = enc[4:0]` where the mode has one. -/
inductive Mode where
  /-- REG, register direct (R66). -/
  | reg (r : RegIdx)
  /-- IND, register indirect (R67). -/
  | ind (r : RegIdx)
  /-- IDX, register indirect plus offset (R68). -/
  | idx (r : RegIdx)
  /-- STK, pop on read, push on write (R69). -/
  | stk
  /-- PEEK, peek (R70). -/
  | peek
  /-- PICK, pick n (R71). -/
  | pick
  /-- SPD, SP direct (R72). -/
  | spd
  /-- PCD, PC direct (R73). -/
  | pcd
  /-- EXD, EX direct (R74). -/
  | exd
  /-- ABS, absolute memory (R75). -/
  | abs
  /-- IMM, immediate next word (R76). -/
  | imm
  /-- LIT, small literal (R77). -/
  | lit (n : BitVec 5)
  deriving DecidableEq, Repr

/-- The names of the general registers, in index order (10_state.md R20). -/
def regA : RegIdx := 0
/-- B is `x[1]` (R20). -/
def regB : RegIdx := 1
/-- C is `x[2]` (R20). -/
def regC : RegIdx := 2
/-- X is `x[3]` (R20). -/
def regX : RegIdx := 3
/-- Y is `x[4]` (R20). -/
def regY : RegIdx := 4
/-- Z is `x[5]` (R20). -/
def regZ : RegIdx := 5
/-- I is `x[6]` (R20). -/
def regI : RegIdx := 6
/-- J is `x[7]` (R20). -/
def regJ : RegIdx := 7

/-- The instructions: one constructor per row of spec/opcode_table.json, with the operands the row names
(00_scope.md R10, R11). `wdata` is an integer of unbounded width (R11, D12). For a GET or SET row the register
index or literal is that of `slot[s].enc`, which the row's selector holds (30_encoding.md R61; log 19). -/
inductive Instr where
  /-- RESET (R210). -/
  | reset
  /-- RDMEM (R81). -/
  | rdmem (addr : Word)
  /-- WRMEM (R82). -/
  | wrmem (addr : Word) (wdata : Int)
  /-- RDREG (R83). -/
  | rdreg (idx : RegIdx)
  /-- WRREG (R84). -/
  | wrreg (idx : RegIdx) (wdata : Int)
  /-- NEXTWORD (R85). -/
  | nextword
  /-- PUSHSLOT (R86). -/
  | pushslot
  /-- POPSLOT (R87). -/
  | popslot
  /-- PEEKADDR (R88). -/
  | peekaddr
  /-- GETPC (R89). -/
  | getpc
  /-- SETPC (R90). -/
  | setpc (wdata : Int)
  /-- GETSP (R91). -/
  | getsp
  /-- SETSP (R92). -/
  | setsp (wdata : Int)
  /-- GETEX (R93). -/
  | getex
  /-- SETEX (R94). -/
  | setex (wdata : Int)
  /-- GETIA (R95). -/
  | getia
  /-- SETIA (R96). -/
  | setia (wdata : Int)
  /-- GETCYC (R97). -/
  | getcyc
  /-- LOAD.REG (R111). -/
  | loadReg (sl : SlotId) (r : RegIdx)
  /-- LOAD.IND (R112). -/
  | loadInd (sl : SlotId) (r : RegIdx)
  /-- LOAD.IDX (R113). -/
  | loadIdx (sl : SlotId) (r : RegIdx)
  /-- LOAD.STK (R114). -/
  | loadStk (sl : SlotId)
  /-- LOAD.PEEK (R115). -/
  | loadPeek (sl : SlotId)
  /-- LOAD.PICK (R116). -/
  | loadPick (sl : SlotId)
  /-- LOAD.SPD (R117). -/
  | loadSpd (sl : SlotId)
  /-- LOAD.PCD (R118). -/
  | loadPcd (sl : SlotId)
  /-- LOAD.EXD (R119). -/
  | loadExd (sl : SlotId)
  /-- LOAD.ABS (R120). -/
  | loadAbs (sl : SlotId)
  /-- LOAD.IMM (R121). -/
  | loadImm (sl : SlotId)
  /-- LOAD.LIT (R122). -/
  | loadLit (sl : SlotId) (n : BitVec 5)
  /-- GET.REG (R131). -/
  | getReg (sl : SlotId) (r : RegIdx)
  /-- GET.IND (R132). -/
  | getInd (sl : SlotId) (r : RegIdx)
  /-- GET.IDX (R133). -/
  | getIdx (sl : SlotId) (r : RegIdx)
  /-- GET.STK (R134). -/
  | getStk (sl : SlotId)
  /-- GET.PEEK (R135). -/
  | getPeek (sl : SlotId)
  /-- GET.PICK (R136). -/
  | getPick (sl : SlotId)
  /-- GET.SPD (R137). -/
  | getSpd (sl : SlotId)
  /-- GET.PCD (R138). -/
  | getPcd (sl : SlotId)
  /-- GET.EXD (R139). -/
  | getExd (sl : SlotId)
  /-- GET.ABS (R140). -/
  | getAbs (sl : SlotId)
  /-- GET.IMM (R141). -/
  | getImm (sl : SlotId)
  /-- GET.LIT (R142). -/
  | getLit (sl : SlotId) (n : BitVec 5)
  /-- SET.REG (R151). -/
  | setReg (sl : SlotId) (r : RegIdx) (wdata : Int)
  /-- SET.IND (R152). -/
  | setInd (sl : SlotId) (r : RegIdx) (wdata : Int)
  /-- SET.IDX (R153). -/
  | setIdx (sl : SlotId) (r : RegIdx) (wdata : Int)
  /-- SET.STK (R154). -/
  | setStk (sl : SlotId) (wdata : Int)
  /-- SET.PEEK (R155). -/
  | setPeek (sl : SlotId) (wdata : Int)
  /-- SET.PICK (R156). -/
  | setPick (sl : SlotId) (wdata : Int)
  /-- SET.SPD (R157). -/
  | setSpd (sl : SlotId) (wdata : Int)
  /-- SET.PCD (R158). -/
  | setPcd (sl : SlotId) (wdata : Int)
  /-- SET.EXD (R159). -/
  | setExd (sl : SlotId) (wdata : Int)
  /-- SET.ABS (R160). -/
  | setAbs (sl : SlotId) (wdata : Int)
  /-- SET.IMM (R161). -/
  | setImm (sl : SlotId) (wdata : Int)
  /-- SET.LIT (R162). -/
  | setLit (sl : SlotId) (n : BitVec 5) (wdata : Int)
  /-- ENC.REG (R66). -/
  | encReg (r : RegIdx)
  /-- ENC.IND (R67). -/
  | encInd (r : RegIdx)
  /-- ENC.IDX (R68). -/
  | encIdx (r : RegIdx)
  /-- ENC.STK (R69). -/
  | encStk
  /-- ENC.PEEK (R70). -/
  | encPeek
  /-- ENC.PICK (R71). -/
  | encPick
  /-- ENC.SPD (R72). -/
  | encSpd
  /-- ENC.PCD (R73). -/
  | encPcd
  /-- ENC.EXD (R74). -/
  | encExd
  /-- ENC.ABS (R75). -/
  | encAbs
  /-- ENC.IMM (R76). -/
  | encImm
  /-- ENC.LIT (R77). -/
  | encLit (n : BitVec 5)
  deriving DecidableEq, Repr

/-- One transaction of the command interface (00_scope.md R10, R11): the command code and the argument
ports. A port the command does not use is ignored (log 15). -/
structure Transaction where
  cmd   : BitVec 5
  enc   : Desc
  slot  : BitVec 1
  idx   : RegIdx
  addr  : Word
  wdata : Int
  deriving DecidableEq, Repr

/-- What can be presented: a transaction, or a descriptor for the classifier alone (the OPERAND6 rows of the
table, R60, R61; log 4: DESIGN CHOICE). -/
inductive Input where
  | command (t : Transaction)
  | descriptor (e : Desc)
  deriving DecidableEq, Repr

end Sys2Proof
end

