-- ==== Sys2Proof/WellFormed.lean ====
section
/-! DEFINITION. Which presented inputs are well formed. Every operand of `Instr` has exactly the width the table
gives it (00_scope.md R11: a register index above 7 or a descriptor above 0x3F "cannot be presented"), so an
`Instr` has no ill-formed value; what can be ill formed is the transaction that carries it: an unassigned
command code, or something on an argument port that the command does not use (R10's argument column). -/

namespace Sys2Proof

/-- The code is one of the 21 commands (30_encoding.md R61). -/
def Transaction.assigned (t : Transaction) : Bool := t.cmd.toNat ≤ 0x14

/-- Only LOAD takes the `enc` argument (R10). -/
def Transaction.usesEnc (t : Transaction) : Bool := t.cmd == 0x12

/-- LOAD, GET and SET take the `slot` argument (R10). -/
def Transaction.usesSlot (t : Transaction) : Bool := [0x12, 0x13, 0x14].contains t.cmd

/-- RDREG and WRREG take the `idx` argument (R10). -/
def Transaction.usesIdx (t : Transaction) : Bool := [0x03, 0x04].contains t.cmd

/-- RDMEM and WRMEM take the `addr` argument (R10). -/
def Transaction.usesAddr (t : Transaction) : Bool := [0x01, 0x02].contains t.cmd

/-- WRMEM, WRREG, SETPC, SETSP, SETEX, SETIA and SET take the `wdata` argument (R10, R80). -/
def Transaction.usesWdata (t : Transaction) : Bool :=
  [0x02, 0x04, 0x0A, 0x0C, 0x0E, 0x10, 0x14].contains t.cmd

/-- The well-formed transactions: an assigned code, and 0 on every port the command does not use. -/
def Transaction.wellFormed (t : Transaction) : Bool :=
  t.assigned && (t.usesEnc || t.enc == 0) && (t.usesSlot || t.slot == 0) && (t.usesIdx || t.idx == 0) &&
    (t.usesAddr || t.addr == 0) && (t.usesWdata || t.wdata == 0)

/-- A descriptor is 6 bits wide, and none is illegal (30_encoding.md R78). -/
def Input.wellFormed : Input → Bool
  | .command t => t.wellFormed
  | .descriptor _ => true

end Sys2Proof
end

