-- ==== Sys2Proof/Decode.lean ====
section
/-! DEFINITION. The decoder (spec/30_encoding.md): the classification of the 6-bit descriptor, the rows of the
opcode table, the selector of a transaction, the instruction it stands for; and after it the encoder. -/

namespace Sys2Proof

/-! ### The operand descriptor -/

/-- `classify` of R62, read as bit fields: `enc[5]`, then `enc[4:3]`, then `enc[2:0]`. -/
def classify (e : Desc) : Mode :=
  if e.getLsbD 5 then .lit (e.extractLsb' 0 5)
  else
    let r : RegIdx := e.extractLsb' 0 3
    match (e.extractLsb' 3 2).toNat with
    | 0 => .reg r
    | 1 => .ind r
    | 2 => .idx r
    | _ =>
      match r.toNat with
      | 0 => .stk
      | 1 => .peek
      | 2 => .pick
      | 3 => .spd
      | 4 => .pcd
      | 5 => .exd
      | 6 => .abs
      | _ => .imm

/-- `needs_extra` of R63: `(enc[5:3] = 0b010) or (enc = 0x1A) or (enc = 0x1E) or (enc = 0x1F)`. -/
def needsExtra (e : Desc) : Bool :=
  e.extractLsb' 3 3 == 0b010 || e == 0x1A || e == 0x1E || e == 0x1F

/-- The descriptor of a mode, from the patterns of R66 to R77. -/
def Mode.desc : Mode → Desc
  | .reg r => 0b000#3 ++ r
  | .ind r => 0b001#3 ++ r
  | .idx r => 0b010#3 ++ r
  | .stk => 0x18
  | .peek => 0x19
  | .pick => 0x1A
  | .spd => 0x1B
  | .pcd => 0x1C
  | .exd => 0x1D
  | .abs => 0x1E
  | .imm => 0x1F
  | .lit n => 1#1 ++ n

/-- Whether the mode takes an extra word (R63, the "Takes an extra word" of R66 to R77). -/
def Mode.takesExtra (m : Mode) : Bool := needsExtra m.desc

/-! ### The rows of the opcode table -/

/-- A row of spec/opcode_table.json: it holds of the bits `w` when `w` masked is the pattern (R61). -/
structure Row where
  pattern : Nat
  mask    : Nat
  deriving DecidableEq, Repr

/-- The row's test of the bits `w` (R61). -/
def Row.fits (row : Row) (w : Nat) : Bool := w &&& row.mask == row.pattern

/-- The table's row for each instruction: on the 11-bit selector for the formats CMD and CMD_ENC, on the
6-bit descriptor for OPERAND6 (R61). -/
def Instr.row : Instr → Row
  | .reset => ⟨0x000, 0x7C0⟩
  | .rdmem _ => ⟨0x040, 0x7C0⟩
  | .wrmem _ _ => ⟨0x080, 0x7C0⟩
  | .rdreg _ => ⟨0x0C0, 0x7C0⟩
  | .wrreg _ _ => ⟨0x100, 0x7C0⟩
  | .nextword => ⟨0x140, 0x7C0⟩
  | .pushslot => ⟨0x180, 0x7C0⟩
  | .popslot => ⟨0x1C0, 0x7C0⟩
  | .peekaddr => ⟨0x200, 0x7C0⟩
  | .getpc => ⟨0x240, 0x7C0⟩
  | .setpc _ => ⟨0x280, 0x7C0⟩
  | .getsp => ⟨0x2C0, 0x7C0⟩
  | .setsp _ => ⟨0x300, 0x7C0⟩
  | .getex => ⟨0x340, 0x7C0⟩
  | .setex _ => ⟨0x380, 0x7C0⟩
  | .getia => ⟨0x3C0, 0x7C0⟩
  | .setia _ => ⟨0x400, 0x7C0⟩
  | .getcyc => ⟨0x440, 0x7C0⟩
  | .loadReg _ _ => ⟨0x480, 0x7F8⟩
  | .loadInd _ _ => ⟨0x488, 0x7F8⟩
  | .loadIdx _ _ => ⟨0x490, 0x7F8⟩
  | .loadStk _ => ⟨0x498, 0x7FF⟩
  | .loadPeek _ => ⟨0x499, 0x7FF⟩
  | .loadPick _ => ⟨0x49A, 0x7FF⟩
  | .loadSpd _ => ⟨0x49B, 0x7FF⟩
  | .loadPcd _ => ⟨0x49C, 0x7FF⟩
  | .loadExd _ => ⟨0x49D, 0x7FF⟩
  | .loadAbs _ => ⟨0x49E, 0x7FF⟩
  | .loadImm _ => ⟨0x49F, 0x7FF⟩
  | .loadLit _ _ => ⟨0x4A0, 0x7E0⟩
  | .getReg _ _ => ⟨0x4C0, 0x7F8⟩
  | .getInd _ _ => ⟨0x4C8, 0x7F8⟩
  | .getIdx _ _ => ⟨0x4D0, 0x7F8⟩
  | .getStk _ => ⟨0x4D8, 0x7FF⟩
  | .getPeek _ => ⟨0x4D9, 0x7FF⟩
  | .getPick _ => ⟨0x4DA, 0x7FF⟩
  | .getSpd _ => ⟨0x4DB, 0x7FF⟩
  | .getPcd _ => ⟨0x4DC, 0x7FF⟩
  | .getExd _ => ⟨0x4DD, 0x7FF⟩
  | .getAbs _ => ⟨0x4DE, 0x7FF⟩
  | .getImm _ => ⟨0x4DF, 0x7FF⟩
  | .getLit _ _ => ⟨0x4E0, 0x7E0⟩
  | .setReg _ _ _ => ⟨0x500, 0x7F8⟩
  | .setInd _ _ _ => ⟨0x508, 0x7F8⟩
  | .setIdx _ _ _ => ⟨0x510, 0x7F8⟩
  | .setStk _ _ => ⟨0x518, 0x7FF⟩
  | .setPeek _ _ => ⟨0x519, 0x7FF⟩
  | .setPick _ _ => ⟨0x51A, 0x7FF⟩
  | .setSpd _ _ => ⟨0x51B, 0x7FF⟩
  | .setPcd _ _ => ⟨0x51C, 0x7FF⟩
  | .setExd _ _ => ⟨0x51D, 0x7FF⟩
  | .setAbs _ _ => ⟨0x51E, 0x7FF⟩
  | .setImm _ _ => ⟨0x51F, 0x7FF⟩
  | .setLit _ _ _ => ⟨0x520, 0x7E0⟩
  | .encReg _ => ⟨0x00, 0x38⟩
  | .encInd _ => ⟨0x08, 0x38⟩
  | .encIdx _ => ⟨0x10, 0x38⟩
  | .encStk => ⟨0x18, 0x3F⟩
  | .encPeek => ⟨0x19, 0x3F⟩
  | .encPick => ⟨0x1A, 0x3F⟩
  | .encSpd => ⟨0x1B, 0x3F⟩
  | .encPcd => ⟨0x1C, 0x3F⟩
  | .encExd => ⟨0x1D, 0x3F⟩
  | .encAbs => ⟨0x1E, 0x3F⟩
  | .encImm => ⟨0x1F, 0x3F⟩
  | .encLit _ => ⟨0x20, 0x20⟩

/-- The bits of an instruction as the table numbers them: the selector `cmd * 64 + enc` (`enc` is 0 where the
row ignores it), or the descriptor for an OPERAND6 row (R61). -/
def Instr.bits : Instr → Nat
  | .reset => 0x000
  | .rdmem _ => 0x040
  | .wrmem _ _ => 0x080
  | .rdreg _ => 0x0C0
  | .wrreg _ _ => 0x100
  | .nextword => 0x140
  | .pushslot => 0x180
  | .popslot => 0x1C0
  | .peekaddr => 0x200
  | .getpc => 0x240
  | .setpc _ => 0x280
  | .getsp => 0x2C0
  | .setsp _ => 0x300
  | .getex => 0x340
  | .setex _ => 0x380
  | .getia => 0x3C0
  | .setia _ => 0x400
  | .getcyc => 0x440
  | .loadReg _ r => 0x480 + r.toNat
  | .loadInd _ r => 0x488 + r.toNat
  | .loadIdx _ r => 0x490 + r.toNat
  | .loadStk _ => 0x498
  | .loadPeek _ => 0x499
  | .loadPick _ => 0x49A
  | .loadSpd _ => 0x49B
  | .loadPcd _ => 0x49C
  | .loadExd _ => 0x49D
  | .loadAbs _ => 0x49E
  | .loadImm _ => 0x49F
  | .loadLit _ n => 0x4A0 + n.toNat
  | .getReg _ r => 0x4C0 + r.toNat
  | .getInd _ r => 0x4C8 + r.toNat
  | .getIdx _ r => 0x4D0 + r.toNat
  | .getStk _ => 0x4D8
  | .getPeek _ => 0x4D9
  | .getPick _ => 0x4DA
  | .getSpd _ => 0x4DB
  | .getPcd _ => 0x4DC
  | .getExd _ => 0x4DD
  | .getAbs _ => 0x4DE
  | .getImm _ => 0x4DF
  | .getLit _ n => 0x4E0 + n.toNat
  | .setReg _ r _ => 0x500 + r.toNat
  | .setInd _ r _ => 0x508 + r.toNat
  | .setIdx _ r _ => 0x510 + r.toNat
  | .setStk _ _ => 0x518
  | .setPeek _ _ => 0x519
  | .setPick _ _ => 0x51A
  | .setSpd _ _ => 0x51B
  | .setPcd _ _ => 0x51C
  | .setExd _ _ => 0x51D
  | .setAbs _ _ => 0x51E
  | .setImm _ _ => 0x51F
  | .setLit _ n _ => 0x520 + n.toNat
  | .encReg r => 0x00 + r.toNat
  | .encInd r => 0x08 + r.toNat
  | .encIdx r => 0x10 + r.toNat
  | .encStk => 0x18
  | .encPeek => 0x19
  | .encPick => 0x1A
  | .encSpd => 0x1B
  | .encPcd => 0x1C
  | .encExd => 0x1D
  | .encAbs => 0x1E
  | .encImm => 0x1F
  | .encLit n => 0x20 + n.toNat

/-- LOAD of a slot in the mode its `enc` argument selects (41_resolver_load.md R110). -/
def loadInstr (sl : SlotId) : Mode → Instr
  | .reg r => .loadReg sl r
  | .ind r => .loadInd sl r
  | .idx r => .loadIdx sl r
  | .stk => .loadStk sl
  | .peek => .loadPeek sl
  | .pick => .loadPick sl
  | .spd => .loadSpd sl
  | .pcd => .loadPcd sl
  | .exd => .loadExd sl
  | .abs => .loadAbs sl
  | .imm => .loadImm sl
  | .lit n => .loadLit sl n

/-- GET of a slot in the mode its `enc` selects (42_resolver_get.md R130). -/
def getInstr (sl : SlotId) : Mode → Instr
  | .reg r => .getReg sl r
  | .ind r => .getInd sl r
  | .idx r => .getIdx sl r
  | .stk => .getStk sl
  | .peek => .getPeek sl
  | .pick => .getPick sl
  | .spd => .getSpd sl
  | .pcd => .getPcd sl
  | .exd => .getExd sl
  | .abs => .getAbs sl
  | .imm => .getImm sl
  | .lit n => .getLit sl n

/-- SET of a slot in the mode its `enc` selects (43_resolver_set.md R150). -/
def setInstr (sl : SlotId) (wdata : Int) : Mode → Instr
  | .reg r => .setReg sl r wdata
  | .ind r => .setInd sl r wdata
  | .idx r => .setIdx sl r wdata
  | .stk => .setStk sl wdata
  | .peek => .setPeek sl wdata
  | .pick => .setPick sl wdata
  | .spd => .setSpd sl wdata
  | .pcd => .setPcd sl wdata
  | .exd => .setExd sl wdata
  | .abs => .setAbs sl wdata
  | .imm => .setImm sl wdata
  | .lit n => .setLit sl n wdata

/-- The classification of a descriptor on its own (R61, R62). -/
def encInstr : Mode → Instr
  | .reg r => .encReg r
  | .ind r => .encInd r
  | .idx r => .encIdx r
  | .stk => .encStk
  | .peek => .encPeek
  | .pick => .encPick
  | .spd => .encSpd
  | .pcd => .encPcd
  | .exd => .encExd
  | .abs => .encAbs
  | .imm => .encImm
  | .lit n => .encLit n

/-- One mode of each of the twelve classes, in table order. -/
def modeClasses : List Mode :=
  [.reg 0, .ind 0, .idx 0, .stk, .peek, .pick, .spd, .pcd, .exd, .abs, .imm, .lit 0]

/-- The 18 rows of format CMD, in table order. -/
def commandRows : List Row :=
  ([.reset, .rdmem 0, .wrmem 0 0, .rdreg 0, .wrreg 0 0, .nextword, .pushslot, .popslot, .peekaddr,
    .getpc, .setpc 0, .getsp, .setsp 0, .getex, .setex 0, .getia, .setia 0, .getcyc] : List Instr).map Instr.row

/-- The first 54 rows of the table, those matched against the selector (R61). -/
def selectorRows : List Row :=
  commandRows ++ modeClasses.map (fun m => (loadInstr .b m).row) ++
    modeClasses.map (fun m => (getInstr .b m).row) ++ modeClasses.map (fun m => (setInstr .b 0 m).row)

/-- The 12 rows of format OPERAND6, matched against the descriptor (R61). -/
def descriptorRows : List Row := modeClasses.map (fun m => (encInstr m).row)

/-! ### The decoder -/

/-- Why a presented input stands for no instruction. -/
inductive DecodeError where
  /-- The command code is one of 0x15 to 0x1F (30_encoding.md R78, 60_exceptions.md R200). -/
  | unassignedCommand (cmd : BitVec 5)
  /-- GET or SET on a slot not loaded since RESET: there is no `slot[s].enc` to select a mode (R201). -/
  | unloadedSlot (slot : SlotId)
  deriving DecidableEq, Repr

/-- The slot argument: 0 is "b", 1 is "a" (00_scope.md R11). -/
def slotOfBit (v : BitVec 1) : SlotId := if v = 0 then .b else .a

/-- The bit of a slot (R11). -/
def SlotId.bit : SlotId → BitVec 1
  | .b => 0
  | .a => 1

/-- GET and SET take their `enc` from the slot they address (R61). -/
def Transaction.encFromSlot (t : Transaction) : Bool := t.cmd == 0x13 || t.cmd == 0x14

/-- `slot[s].enc` for the slot addressed, out of the descriptors of the two loaded slots. -/
def pickSlotEnc (encB encA : Option Desc) : SlotId → Option Desc
  | .b => encB
  | .a => encA

/-- The selector `sel = {cmd[4:0], enc[5:0]}` of R61, where `enc` is the argument, or `slot[s].enc` for GET
and SET (none when that slot is not loaded). -/
def Transaction.selector (encB encA : Option Desc) (t : Transaction) : Option Selector :=
  if t.encFromSlot then (pickSlotEnc encB encA (slotOfBit t.slot)).map (fun e => t.cmd ++ e)
  else some (t.cmd ++ t.enc)

/-- The instruction of a selector, its other operands read from the argument ports (R61). -/
def decodeSelector (sel : Selector) (t : Transaction) : Except DecodeError Instr :=
  let e : Desc := sel.extractLsb' 0 6
  match (sel.extractLsb' 6 5).toNat with
  | 0x00 => .ok .reset
  | 0x01 => .ok (.rdmem t.addr)
  | 0x02 => .ok (.wrmem t.addr t.wdata)
  | 0x03 => .ok (.rdreg t.idx)
  | 0x04 => .ok (.wrreg t.idx t.wdata)
  | 0x05 => .ok .nextword
  | 0x06 => .ok .pushslot
  | 0x07 => .ok .popslot
  | 0x08 => .ok .peekaddr
  | 0x09 => .ok .getpc
  | 0x0A => .ok (.setpc t.wdata)
  | 0x0B => .ok .getsp
  | 0x0C => .ok (.setsp t.wdata)
  | 0x0D => .ok .getex
  | 0x0E => .ok (.setex t.wdata)
  | 0x0F => .ok .getia
  | 0x10 => .ok (.setia t.wdata)
  | 0x11 => .ok .getcyc
  | 0x12 => .ok (loadInstr (slotOfBit t.slot) (classify e))
  | 0x13 => .ok (getInstr (slotOfBit t.slot) (classify e))
  | 0x14 => .ok (setInstr (slotOfBit t.slot) t.wdata (classify e))
  | _ => .error (.unassignedCommand (sel.extractLsb' 6 5))

/-- The decoder, total on every input; `encB` and `encA` are the descriptors of the slots that are loaded. -/
def decode (encB encA : Option Desc) : Input → Except DecodeError Instr
  | .descriptor e => .ok (encInstr (classify e))
  | .command t =>
    match t.selector encB encA with
    | some sel => decodeSelector sel t
    | none => .error (.unloadedSlot (slotOfBit t.slot))

/-! ### The encoder -/

/-- A transaction of code `cmd` with 0 on every argument port. -/
def idleTransaction (cmd : BitVec 5) : Transaction :=
  { cmd := cmd, enc := 0, slot := 0, idx := 0, addr := 0, wdata := 0 }

/-- The transaction of LOAD (R10: `slot`, `enc`). -/
def loadTransaction (sl : SlotId) (m : Mode) : Input :=
  .command { idleTransaction 0x12 with slot := sl.bit, enc := m.desc }

/-- The transaction of GET (R10: `slot`). The mode is not presented: it is in the slot (R61). -/
def getTransaction (sl : SlotId) : Input :=
  .command { idleTransaction 0x13 with slot := sl.bit }

/-- The transaction of SET (R10: `slot`, `wdata`). The mode is not presented: it is in the slot (R61). -/
def setTransaction (sl : SlotId) (wdata : Int) : Input :=
  .command { idleTransaction 0x14 with slot := sl.bit, wdata := wdata }

/-- The encoder: the input that stands for an instruction (30_encoding.md R61, R66 to R77). -/
def encode : Instr → Input
  | .reset => .command (idleTransaction 0x00)
  | .rdmem addr => .command { idleTransaction 0x01 with addr := addr }
  | .wrmem addr wdata => .command { idleTransaction 0x02 with addr := addr, wdata := wdata }
  | .rdreg idx => .command { idleTransaction 0x03 with idx := idx }
  | .wrreg idx wdata => .command { idleTransaction 0x04 with idx := idx, wdata := wdata }
  | .nextword => .command (idleTransaction 0x05)
  | .pushslot => .command (idleTransaction 0x06)
  | .popslot => .command (idleTransaction 0x07)
  | .peekaddr => .command (idleTransaction 0x08)
  | .getpc => .command (idleTransaction 0x09)
  | .setpc wdata => .command { idleTransaction 0x0A with wdata := wdata }
  | .getsp => .command (idleTransaction 0x0B)
  | .setsp wdata => .command { idleTransaction 0x0C with wdata := wdata }
  | .getex => .command (idleTransaction 0x0D)
  | .setex wdata => .command { idleTransaction 0x0E with wdata := wdata }
  | .getia => .command (idleTransaction 0x0F)
  | .setia wdata => .command { idleTransaction 0x10 with wdata := wdata }
  | .getcyc => .command (idleTransaction 0x11)
  | .loadReg sl r => loadTransaction sl (.reg r)
  | .loadInd sl r => loadTransaction sl (.ind r)
  | .loadIdx sl r => loadTransaction sl (.idx r)
  | .loadStk sl => loadTransaction sl .stk
  | .loadPeek sl => loadTransaction sl .peek
  | .loadPick sl => loadTransaction sl .pick
  | .loadSpd sl => loadTransaction sl .spd
  | .loadPcd sl => loadTransaction sl .pcd
  | .loadExd sl => loadTransaction sl .exd
  | .loadAbs sl => loadTransaction sl .abs
  | .loadImm sl => loadTransaction sl .imm
  | .loadLit sl n => loadTransaction sl (.lit n)
  | .getReg sl _ => getTransaction sl
  | .getInd sl _ => getTransaction sl
  | .getIdx sl _ => getTransaction sl
  | .getStk sl => getTransaction sl
  | .getPeek sl => getTransaction sl
  | .getPick sl => getTransaction sl
  | .getSpd sl => getTransaction sl
  | .getPcd sl => getTransaction sl
  | .getExd sl => getTransaction sl
  | .getAbs sl => getTransaction sl
  | .getImm sl => getTransaction sl
  | .getLit sl _ => getTransaction sl
  | .setReg sl _ wdata => setTransaction sl wdata
  | .setInd sl _ wdata => setTransaction sl wdata
  | .setIdx sl _ wdata => setTransaction sl wdata
  | .setStk sl wdata => setTransaction sl wdata
  | .setPeek sl wdata => setTransaction sl wdata
  | .setPick sl wdata => setTransaction sl wdata
  | .setSpd sl wdata => setTransaction sl wdata
  | .setPcd sl wdata => setTransaction sl wdata
  | .setExd sl wdata => setTransaction sl wdata
  | .setAbs sl wdata => setTransaction sl wdata
  | .setImm sl wdata => setTransaction sl wdata
  | .setLit sl _ wdata => setTransaction sl wdata
  | .encReg r => .descriptor (Mode.desc (.reg r))
  | .encInd r => .descriptor (Mode.desc (.ind r))
  | .encIdx r => .descriptor (Mode.desc (.idx r))
  | .encStk => .descriptor (Mode.desc .stk)
  | .encPeek => .descriptor (Mode.desc .peek)
  | .encPick => .descriptor (Mode.desc .pick)
  | .encSpd => .descriptor (Mode.desc .spd)
  | .encPcd => .descriptor (Mode.desc .pcd)
  | .encExd => .descriptor (Mode.desc .exd)
  | .encAbs => .descriptor (Mode.desc .abs)
  | .encImm => .descriptor (Mode.desc .imm)
  | .encLit n => .descriptor (Mode.desc (.lit n))

/-- For a GET or SET row, the slot it addresses and the mode that slot's descriptor selects (R61); no other
row reads a slot's descriptor. -/
def Instr.slotMode : Instr → Option (SlotId × Mode)
  | .getReg sl r => some (sl, .reg r)
  | .getInd sl r => some (sl, .ind r)
  | .getIdx sl r => some (sl, .idx r)
  | .getStk sl => some (sl, .stk)
  | .getPeek sl => some (sl, .peek)
  | .getPick sl => some (sl, .pick)
  | .getSpd sl => some (sl, .spd)
  | .getPcd sl => some (sl, .pcd)
  | .getExd sl => some (sl, .exd)
  | .getAbs sl => some (sl, .abs)
  | .getImm sl => some (sl, .imm)
  | .getLit sl n => some (sl, .lit n)
  | .setReg sl r _ => some (sl, .reg r)
  | .setInd sl r _ => some (sl, .ind r)
  | .setIdx sl r _ => some (sl, .idx r)
  | .setStk sl _ => some (sl, .stk)
  | .setPeek sl _ => some (sl, .peek)
  | .setPick sl _ => some (sl, .pick)
  | .setSpd sl _ => some (sl, .spd)
  | .setPcd sl _ => some (sl, .pcd)
  | .setExd sl _ => some (sl, .exd)
  | .setAbs sl _ => some (sl, .abs)
  | .setImm sl _ => some (sl, .imm)
  | .setLit sl n _ => some (sl, .lit n)
  | .reset
  | .rdmem _
  | .wrmem _ _
  | .rdreg _
  | .wrreg _ _
  | .nextword
  | .pushslot
  | .popslot
  | .peekaddr
  | .getpc
  | .setpc _
  | .getsp
  | .setsp _
  | .getex
  | .setex _
  | .getia
  | .setia _
  | .getcyc
  | .loadReg _ _
  | .loadInd _ _
  | .loadIdx _ _
  | .loadStk _
  | .loadPeek _
  | .loadPick _
  | .loadSpd _
  | .loadPcd _
  | .loadExd _
  | .loadAbs _
  | .loadImm _
  | .loadLit _ _
  | .encReg _
  | .encInd _
  | .encIdx _
  | .encStk
  | .encPeek
  | .encPick
  | .encSpd
  | .encPcd
  | .encExd
  | .encAbs
  | .encImm
  | .encLit _ => none

/-! ### Words of the opcode table -/

/-- The input a row of the table stands for, from the row's bits alone: `nbits <= 8` is the format OPERAND6
(6 bits in a byte), otherwise the bits are the selector (11 bits in two bytes), and every other operand is 0.
Bits above the format's width cannot be presented (R11; log 15). -/
def tableInput (nbits w : Nat) : Option Input :=
  if nbits ≤ 8 then
    if w < 2 ^ 6 then some (.descriptor (BitVec.ofNat 6 w)) else none
  else if w < 2 ^ 11 then
    some (.command { idleTransaction (BitVec.ofNat 5 (w / 64)) with enc := BitVec.ofNat 6 (w % 64) })
  else none

/-- The instruction the decoder reads from a row's bits; for a GET or SET row the bits `enc` are those of the
slot addressed (R61), so the slots are taken to hold them. -/
def decodeTableWord (nbits w : Nat) : Option Instr :=
  match tableInput nbits w with
  | none => none
  | some inp =>
    let e := some (BitVec.ofNat 6 (w % 64))
    match decode e e inp with
    | .ok i => some i
    | .error _ => none

end Sys2Proof
end

