-- ==== Sys2Proof/Machine/Flags.lean ====
section
/-! DEFINITION. "The CORE has no status flags, no condition codes and no predicates, and no command writes `ex`
as a side effect" (10_state.md R27), so there is no flag computation. What stands here is the arithmetic that
takes a flag's place: the normaliser (sub-block NORM) and the increment/wraparound unit (sub-block INCU). -/

namespace Sys2Proof.Machine

/-- `norm16` (40_machine_state_ops.md R80): `v mod 65536` for `v >= 0`, `(|v| + 0x8000) mod 65536` for
`v < 0`. It is not two's complement (90_conflicts.md C1; log 18: UNVERIFIED literal). -/
def norm16 (v : Int) : Word :=
  if 0 ≤ v then BitVec.ofNat 16 v.toNat else BitVec.ofNat 16 (v.natAbs + 0x8000)

/-- `(w + 1) mod 65536` (R100). -/
def incr (w : Word) : Word := w + 1

/-- `(w - 1) mod 65536`, so 0 goes to 0xFFFF (R100, decision D7; log 13). -/
def decr (w : Word) : Word := w - 1

end Sys2Proof.Machine
end

