-- ==== Sys2Proof/Machine/Memory.lean ====
section
/-! DEFINITION. The memory array as plain data (spec/20_memory.md): reading and writing one cell, and the
canonical form. A cell number here is already folded modulo `MEMSIZE` (R42; Machine/Ops.lean does it). -/

namespace Sys2Proof

/-- What a cell that is not listed reads as: the default of `MEM_INIT` (00_scope.md R8, 10_state.md R35, the
spec's decision D5; log 6: DESIGN CHOICE, the source gives no value). -/
def Memory.unlisted : Word := 0

/-- `mem[k]`. -/
def Memory.read : Memory → Nat → Word
  | [], _ => Memory.unlisted
  | (j, w) :: m, k => if j = k then w else Memory.read m k

/-- `mem[k] <- v`, kept in canonical form: writing what an unlisted cell reads as takes the entry away. -/
def Memory.write : Memory → Nat → Word → Memory
  | [], k, v => if v = Memory.unlisted then [] else [(k, v)]
  | (j, w) :: m, k, v =>
    if k < j then
      if v = Memory.unlisted then (j, w) :: m else (k, v) :: (j, w) :: m
    else if k = j then
      if v = Memory.unlisted then m else (k, v) :: m
    else (j, w) :: Memory.write m k v

/-- Every entry lies above `k`, the entries rise strictly, and none holds what an unlisted cell reads as. -/
def Memory.wfAbove (lo : Nat) : Memory → Bool
  | [] => true
  | (j, w) :: m => decide (lo ≤ j) && decide (w ≠ Memory.unlisted) && Memory.wfAbove (j + 1) m

/-- The canonical form: cell numbers strictly rising, no entry equal to what an unlisted cell reads as. Two
memories in this form that read the same everywhere are the same list. -/
def Memory.wf (m : Memory) : Bool := Memory.wfAbove 0 m

/-- Every listed cell is one of `mem[0..n-1]` (10_state.md R30). -/
def Memory.inside (n : Nat) (m : Memory) : Bool := m.all fun c => decide (c.1 < n)

end Sys2Proof
end

