-- ==== Sys2Proof/Config.lean ====
section
/-! DEFINITION. What is fixed when the machine is built or given at reset (spec/00_scope.md R7, R8), and the
values the spec leaves open after a command (free values, log 11). -/

namespace Sys2Proof

/-- The parameters of the machine, "each an argument of the model with the default shown" (R7, R8). They
stand in the state, where no command writes them, so that a claim over every state is a claim over every
parameter (log 7: DESIGN CHOICE). -/
structure Params where
  /-- `k` of `MEMSIZE = 2^k`, `0 <= k <= 16` (R7, D1). -/
  memBits  : Fin 17
  /-- `SP_INIT` (R8, R25). -/
  spInit   : Word
  /-- `INIT_REGS` (R8, D4). -/
  initRegs : Vector Word 8
  /-- `INIT_EX` (R8, D4). -/
  initEx   : Word
  /-- `INIT_IA` (R8, D4). -/
  initIa   : Word
  /-- `MEM_INIT` (R8, D5), the cells it lists; a cell it does not list starts as an unlisted cell reads. -/
  memInit  : Memory
  deriving DecidableEq, Repr

/-- `MEMSIZE`, the number of words of the memory array (R7). -/
def Params.memSize (p : Params) : Nat := 2 ^ p.memBits.val

/-- The defaults of R7 and R8: `MEMSIZE = 65536`, `SP_INIT = 0xFFFF`, everything else 0
(log 6, log 7, log 8: DESIGN CHOICE for the zeros, the spec's own defaults D4 and D5). -/
def Params.standard : Params where
  memBits  := 16
  spInit   := 0xFFFF
  initRegs := Vector.replicate 8 0
  initEx   := 0
  initIa   := 0
  memInit  := []

/-- Free values, one for each number drawn: the descriptor an unloaded slot holds after RESET (R35, U7). -/
opaque Config.freeEnc : Nat → Desc

/-- Free values: the `has_extra` bit an unloaded slot holds after RESET (R35, U7). -/
opaque Config.freeHasExtra : Nat → Bool

/-- Free values: the `extra` word of a slot that holds none, after RESET and after a LOAD in a mode that
takes no extra word (R35, R110 "else slot[s].extra is unspecified and no rule reads it", U7). -/
opaque Config.freeExtra : Nat → Word

end Sys2Proof
end

