-- ==== Sys2Proof/Machine/State.lean ====
section
/-! DEFINITION. The state of the CORE (spec/10_state.md), what a command returns, why a step can stop, and the
state after reset. -/

namespace Sys2Proof.Machine

/-- A resolver slot (10_state.md R31): `hasExtra` is `has_extra`; `extra` has a meaning only when `hasExtra`
is true; `enc`, `hasExtra` and `extra` have one only when `loaded` is true. -/
structure Slot where
  loaded   : Bool
  enc      : Desc
  hasExtra : Bool
  extra    : Word
  deriving DecidableEq, Repr

/-- The result of a command (00_scope.md R9, R10). -/
inductive Response where
  /-- The command returns nothing, or no command has run. -/
  | none
  /-- A word: a value or an address. -/
  | word (w : Word)
  /-- A natural number (GETCYC). -/
  | count (n : Nat)
  /-- A classification (the OPERAND6 rows): the mode, and whether it takes an extra word (R62, R63). -/
  | mode (m : Mode) (takesExtra : Bool)
  deriving DecidableEq, Repr

/-- The state: the tuple of 10_state.md R35, the parameters of 00_scope.md R7 and R8, and after them three
fields of the model's own (log 1, log 3, log 11). -/
structure State where
  /-- `x[0..7]`: A, B, C, X, Y, Z, I, J (R20). -/
  x         : Vector Word 8
  /-- The program counter (R23). -/
  pc        : Word
  /-- The stack pointer (R25). -/
  sp        : Word
  /-- The extra/overflow register, plain storage (R27). -/
  ex        : Word
  /-- The interrupt address register, plain storage (R28). -/
  ia        : Word
  /-- The cycle counter (R29). -/
  cyc       : Nat
  /-- `mem[0..MEMSIZE-1]` (R30). -/
  mem       : Memory
  /-- `slot[0]`, the "b" operand (R32). -/
  slotB     : Slot
  /-- `slot[1]`, the "a" operand (R32). -/
  slotA     : Slot
  /-- The parameters of the machine (R7, R8), which no command writes (log 7); `SP_INIT` too is one
  value over a run (log 24: DESIGN CHOICE). -/
  params    : Params
  /-- The model's own: what the dispatcher has still to present, first one first (R9, R10; log 1). -/
  pending   : List Input
  /-- The model's own: what the last command returned (R9, R10; log 3). -/
  response  : Response
  /-- The model's own: how many free values have been drawn (log 11). -/
  freeCount : Nat
  deriving DecidableEq, Repr

/-- The faults of the machine: NONE. "The set of synchronous exceptions of the CORE is empty"
(60_exceptions.md R190), so the type has no constructor (log 22). -/
inductive Fault
  deriving DecidableEq, Repr

/-- The refusals of the model, which are "not behaviours of the hardware" (60_exceptions.md section 6). -/
inductive Refusal where
  /-- Raised by an arm of `exec` whose instruction has no meaning yet. Safe. -/
  | notModelled (mnemonic : String)
  /-- Raised by `step` on a command code of 0x15 to 0x1F, which has no meaning (R200; log 16). Safe. -/
  | unassignedCommand (cmd : BitVec 5)
  /-- Raised by GET and SET on a slot not loaded since RESET (R201; log 17). Safe. -/
  | unloadedSlot (slot : SlotId)
  deriving DecidableEq, Repr

/-- A slot at reset: `loaded = false` (R35). The other fields are unspecified there; 0, false and 0 are the
model's values (log 10: DESIGN CHOICE), which no command reads while `loaded` is false. -/
def Slot.atReset : Slot := { loaded := false, enc := 0, hasExtra := false, extra := 0 }

/-- The state right after reset of a machine with parameters `p` (R35, R210), with no command pending. -/
def State.resetWith (p : Params) : State where
  x         := p.initRegs
  pc        := 0
  sp        := p.spInit
  ex        := p.initEx
  ia        := p.initIa
  cyc       := 0
  mem       := p.memInit
  slotB     := Slot.atReset
  slotA     := Slot.atReset
  params    := p
  pending   := []
  response  := .none
  freeCount := 0

/-- The machine right after reset, with the default parameters of R7 and R8. -/
def State.reset : State := State.resetWith Params.standard

end Sys2Proof.Machine
end

