-- ==== Sys2Proof/Machine/Ops.lean ====
section
/-! DEFINITION. The named operations over memory and registers that every meaning is written with
(spec/00_scope.md section 5, spec/40_machine_state_ops.md), and how the next command is taken. There is no
operation "take an exception" and no return from one: the CORE has neither (60_exceptions.md R190 to R195). -/

namespace Sys2Proof.Machine

/-! ### Memory (sub-block MEM) -/

/-- `MEMSIZE` of this machine (R7). -/
def State.memSize (s : State) : Nat := s.params.memSize

/-- The cell an address reaches: `addr mod MEMSIZE`, on the address as a natural number (20_memory.md R42). -/
def State.cellOf (s : State) (addr : Nat) : Nat := addr % s.memSize

/-- The word an address reaches, without an access. -/
def State.peekMem (s : State) (addr : Nat) : Word := s.mem.read (s.cellOf addr)

/-- `MemRead(addr, 1)` (R81): the word, and `cyc + 1`. -/
def State.memRead (s : State) (addr : Nat) : Word × State :=
  (s.peekMem addr, { s with cyc := s.cyc + 1 })

/-- `MemWrite(addr, 1, v)` (R82): the value is normalised where it is stored; `cyc + 1`. -/
def State.memWrite (s : State) (addr : Nat) (v : Int) : State :=
  { s with mem := s.mem.write (s.cellOf addr) (norm16 v), cyc := s.cyc + 1 }

/-! ### Registers (sub-block RF) -/

/-- `x[r]` (R20, R83). No register is hard-wired (R21). -/
def State.reg (s : State) (r : RegIdx) : Word := s.x[r.toNat]

/-- `x[r] <- norm16(v)` (R84). -/
def State.setReg (s : State) (r : RegIdx) (v : Int) : State :=
  { s with x := s.x.set r.toNat (norm16 v) }

/-! ### Fetch and stack addresses (sub-block INCU) -/

/-- `NextWord()` (R85): the word `pc` pointed to before, then `pc + 1`. -/
def State.nextWord (s : State) : Word × State :=
  let p := s.memRead s.pc.toNat
  (p.1, { p.2 with pc := incr s.pc })

/-- `PushSlot()` (R86): `sp - 1`, the new `sp` is the address. -/
def State.pushSlot (s : State) : Word × State := (decr s.sp, { s with sp := decr s.sp })

/-- `PopSlot()` (R87): the old `sp` is the address, then `sp + 1`. -/
def State.popSlot (s : State) : Word × State := (s.sp, { s with sp := incr s.sp })

/-- `PeekAddress()` (R88). -/
def State.peekAddress (s : State) : Word := s.sp

/-! ### Resolver slots (sub-block RES) -/

/-- `slot[s]` (R32). -/
def State.slot (s : State) : SlotId → Slot
  | .b => s.slotB
  | .a => s.slotA

/-- `slot[s] <- v`; the other slot is untouched (R110). -/
def State.setSlot (s : State) (sl : SlotId) (v : Slot) : State :=
  match sl with
  | .b => { s with slotB := v }
  | .a => { s with slotA := v }

/-- `slot[s].enc` of a loaded slot; none while `loaded` is false, when it is unspecified (R35). -/
def Slot.enc? (v : Slot) : Option Desc := if v.loaded then some v.enc else none

/-- A slot after RESET: not loaded, its other fields free values, the `n`-th ones (R35, R210, U7; log 11). -/
def Slot.unloaded (n : Nat) : Slot :=
  { loaded := false, enc := Config.freeEnc n, hasExtra := Config.freeHasExtra n, extra := Config.freeExtra n }

/-- RESET's effect on the state (R210): every field of the tuple of R35 takes its reset value. What is not
state of the CORE stays: the parameters and the dispatcher's further commands (log 21). `SP_INIT`, "a reset-time
input", and the other initial values are read from the parameters of the state, so that every RESET of one run
takes the same ones, which the spec leaves open (log 24: DESIGN CHOICE). -/
def State.resetCore (s : State) : State :=
  { x := s.params.initRegs, pc := 0, sp := s.params.spInit, ex := s.params.initEx, ia := s.params.initIa,
    cyc := 0, mem := s.params.memInit,
    slotB := Slot.unloaded s.freeCount, slotA := Slot.unloaded (s.freeCount + 1),
    params := s.params, pending := s.pending, response := s.response, freeCount := s.freeCount + 2 }

/-! ### The command interface -/

/-- The command returns `r` (R9, R10). -/
def State.respond (s : State) (r : Response) : State := { s with response := r }

/-- The command completes in state `s` and returns nothing. -/
def answerNone (s : State) : Host.Outcome State Fault Refusal := .next (s.respond .none)

/-- The command completes in the state `p.2` and returns the word `p.1`. -/
def answerWord (p : Word × State) : Host.Outcome State Fault Refusal := .next (p.2.respond (.word p.1))

/-- The next input the dispatcher presents, and the state with it taken (R9). -/
def State.takeInput (s : State) : Option (Input × State) :=
  match s.pending with
  | [] => none
  | inp :: rest => some (inp, { s with pending := rest })

/-- The instruction an input stands for in this state (R61: GET and SET look at the slot's descriptor). -/
def State.decodeInput (s : State) (inp : Input) : Except DecodeError Instr :=
  decode s.slotB.enc? s.slotA.enc? inp

/-- The refusal for an input that stands for no instruction (R200, R201). -/
def refusalOf : DecodeError → Refusal
  | .unassignedCommand cmd => .unassignedCommand cmd
  | .unloadedSlot sl => .unloadedSlot sl

/-- A slot that holds the descriptor `e`, as a LOAD of `e` would leave its `loaded`, `enc` and `has_extra`. -/
def Slot.holding (v : Slot) (e : Desc) : Slot :=
  { v with loaded := true, enc := e, hasExtra := needsExtra e }

/-- The state in which the input a table word stands for is presented next. For a GET or SET row the row's
bits `enc` are `slot[s].enc` (R61), so the slot addressed is given them. A word wider than its row cannot be
presented (R11) and changes nothing (log 15). -/
def State.presentTableWord (s : State) (nbits w : Nat) : State :=
  match tableInput nbits w with
  | none => s
  | some (.descriptor e) => { s with pending := .descriptor e :: s.pending }
  | some (.command t) =>
    let p := { s with pending := .command t :: s.pending }
    if t.encFromSlot then p.setSlot (slotOfBit t.slot) ((p.slot (slotOfBit t.slot)).holding t.enc) else p

end Sys2Proof.Machine
end

