-- ==== Sys2Proof/Machine/Classify.lean ====
section
/-! DEFINITION. The OPERAND6 rows of the table: "the classification of rule R62 on its own" (spec/30_encoding.md R61,
R62, R66 to R77). Such a row is no command of R10; run alone it returns the mode and whether the mode takes an
extra word (R63), and changes nothing (log 4: DESIGN CHOICE). -/

namespace Sys2Proof.Machine

/-- The classification of a descriptor of mode `m` is returned. -/
def State.classified (s : State) (m : Mode) : Host.Outcome State Fault Refusal :=
  .next (s.respond (.mode m m.takesExtra))

/-- ENC.REG, register direct (R66). -/
def execEncReg (r : RegIdx) (s : State) : Host.Outcome State Fault Refusal :=
  s.classified (.reg r)

/-- ENC.IND, register indirect (R67). -/
def execEncInd (r : RegIdx) (s : State) : Host.Outcome State Fault Refusal :=
  s.classified (.ind r)

/-- ENC.IDX, register indirect plus offset (R68). -/
def execEncIdx (r : RegIdx) (s : State) : Host.Outcome State Fault Refusal :=
  s.classified (.idx r)

/-- ENC.STK, pop on read, push on write (R69). -/
def execEncStk (s : State) : Host.Outcome State Fault Refusal :=
  s.classified .stk

/-- ENC.PEEK, peek (R70). -/
def execEncPeek (s : State) : Host.Outcome State Fault Refusal :=
  s.classified .peek

/-- ENC.PICK, pick n (R71). -/
def execEncPick (s : State) : Host.Outcome State Fault Refusal :=
  s.classified .pick

/-- ENC.SPD, SP direct (R72). -/
def execEncSpd (s : State) : Host.Outcome State Fault Refusal :=
  s.classified .spd

/-- ENC.PCD, PC direct (R73). -/
def execEncPcd (s : State) : Host.Outcome State Fault Refusal :=
  s.classified .pcd

/-- ENC.EXD, EX direct (R74). -/
def execEncExd (s : State) : Host.Outcome State Fault Refusal :=
  s.classified .exd

/-- ENC.ABS, absolute memory (R75). -/
def execEncAbs (s : State) : Host.Outcome State Fault Refusal :=
  s.classified .abs

/-- ENC.IMM, immediate next word (R76). -/
def execEncImm (s : State) : Host.Outcome State Fault Refusal :=
  s.classified .imm

/-- ENC.LIT, small literal (R77). -/
def execEncLit (n : BitVec 5) (s : State) : Host.Outcome State Fault Refusal :=
  s.classified (.lit n)

end Sys2Proof.Machine
end

