-- ==== Sys2Proof/Machine/Operands.lean ====
section
/-! DEFINITION. The Operand Resolver's shared operations (spec/41_resolver_load.md, 42_resolver_get.md,
43_resolver_set.md): latching a descriptor, the effective address of each memory mode, and the test that a
slot is loaded. Which mode an instruction is in is its constructor. -/

namespace Sys2Proof.Machine

/-! ### LOAD -/

/-- LOAD in a mode that takes no extra word (R110): the descriptor is latched; "slot[s].extra is unspecified
and no rule reads it", a free value (log 11). -/
def State.latchPlain (s : State) (sl : SlotId) (e : Desc) : State :=
  { s.setSlot sl { loaded := true, enc := e, hasExtra := false, extra := Config.freeExtra s.freeCount } with
    freeCount := s.freeCount + 1 }

/-- LOAD in a mode that takes an extra word (R110): the descriptor and `NextWord()` are latched. -/
def State.latchExtra (s : State) (sl : SlotId) (e : Desc) : State :=
  let p := s.nextWord
  p.2.setSlot sl { loaded := true, enc := e, hasExtra := true, extra := p.1 }

/-! ### Effective addresses, formed when GET or SET runs (44_sequencing_and_control.md R172) -/

/-- IND: `x[r]` (R67, R132). -/
def State.indAddr (s : State) (r : RegIdx) : Nat := (s.reg r).toNat

/-- IDX: `x[r] + extra`, the exact sum (R68, R133). -/
def State.idxAddr (s : State) (r : RegIdx) (extra : Word) : Nat := (s.reg r).toNat + extra.toNat

/-- PEEK: `sp` (R70, R135). -/
def State.peekAddr (s : State) : Nat := s.peekAddress.toNat

/-- PICK: `sp + extra`, the exact sum (R71, R136). -/
def State.pickAddr (s : State) (extra : Word) : Nat := s.peekAddress.toNat + extra.toNat

/-- ABS: `extra` (R75, R140). -/
def absAddr (extra : Word) : Nat := extra.toNat

/-- LIT: `zext_16(enc[4:0])` (R64, R77, R142). -/
def litValue (n : BitVec 5) : Word := n.setWidth 16

/-! ### GET and SET -/

/-- GET and SET go on with the slot they address if it is loaded; if it is not, they are refused
(R130, R150, R201; log 17). -/
def State.withLoaded (s : State) (sl : SlotId) (k : Slot → Host.Outcome State Fault Refusal) :
    Host.Outcome State Fault Refusal :=
  if (s.slot sl).loaded then k (s.slot sl) else .refused (.unloadedSlot sl)

/-- GET in mode STK: `MemRead(PopSlot(), 1)` (R134). -/
def State.popWord (s : State) : Word × State :=
  let p := s.popSlot
  p.2.memRead p.1.toNat

/-- SET in mode STK: `MemWrite(PushSlot(), 1, v)` (R154). -/
def State.pushWord (s : State) (v : Int) : State :=
  let p := s.pushSlot
  p.2.memWrite p.1.toNat v

end Sys2Proof.Machine
end

