-- ==== Sys2Proof/Machine/Get.lean ====
section
/-! DEFINITION. GET in each of the twelve modes (spec/42_resolver_get.md R130 to R142). The mode, with its register
index or literal, is that of the slot's descriptor (R61; log 19); the extra word is the slot's latched copy (R34). -/

namespace Sys2Proof.Machine

/-- GET in mode REG, register direct (R131). -/
def execGetReg (sl : SlotId) (r : RegIdx) (s : State) : Host.Outcome State Fault Refusal :=
  s.withLoaded sl fun _ => answerWord (s.reg r, s)

/-- GET in mode IND, register indirect (R132). -/
def execGetInd (sl : SlotId) (r : RegIdx) (s : State) : Host.Outcome State Fault Refusal :=
  s.withLoaded sl fun _ => answerWord (s.memRead (s.indAddr r))

/-- GET in mode IDX, register indirect plus offset (R133). -/
def execGetIdx (sl : SlotId) (r : RegIdx) (s : State) : Host.Outcome State Fault Refusal :=
  s.withLoaded sl fun v => answerWord (s.memRead (s.idxAddr r v.extra))

/-- GET in mode STK, pop (R134). -/
def execGetStk (sl : SlotId) (s : State) : Host.Outcome State Fault Refusal :=
  s.withLoaded sl fun _ => answerWord s.popWord

/-- GET in mode PEEK, peek (R135). -/
def execGetPeek (sl : SlotId) (s : State) : Host.Outcome State Fault Refusal :=
  s.withLoaded sl fun _ => answerWord (s.memRead s.peekAddr)

/-- GET in mode PICK, pick n (R136). -/
def execGetPick (sl : SlotId) (s : State) : Host.Outcome State Fault Refusal :=
  s.withLoaded sl fun v => answerWord (s.memRead (s.pickAddr v.extra))

/-- GET in mode SPD, SP direct (R137). -/
def execGetSpd (sl : SlotId) (s : State) : Host.Outcome State Fault Refusal :=
  s.withLoaded sl fun _ => answerWord (s.sp, s)

/-- GET in mode PCD, PC direct (R138). -/
def execGetPcd (sl : SlotId) (s : State) : Host.Outcome State Fault Refusal :=
  s.withLoaded sl fun _ => answerWord (s.pc, s)

/-- GET in mode EXD, EX direct (R139). -/
def execGetExd (sl : SlotId) (s : State) : Host.Outcome State Fault Refusal :=
  s.withLoaded sl fun _ => answerWord (s.ex, s)

/-- GET in mode ABS, absolute memory (R140). -/
def execGetAbs (sl : SlotId) (s : State) : Host.Outcome State Fault Refusal :=
  s.withLoaded sl fun v => answerWord (s.memRead (absAddr v.extra))

/-- GET in mode IMM, immediate next word (R141). -/
def execGetImm (sl : SlotId) (s : State) : Host.Outcome State Fault Refusal :=
  s.withLoaded sl fun v => answerWord (v.extra, s)

/-- GET in mode LIT, small literal (R142). -/
def execGetLit (sl : SlotId) (n : BitVec 5) (s : State) : Host.Outcome State Fault Refusal :=
  s.withLoaded sl fun _ => answerWord (litValue n, s)

end Sys2Proof.Machine
end

