-- ==== Sys2Proof/Machine/Load.lean ====
section
/-! DEFINITION. LOAD in each of the twelve modes (spec/41_resolver_load.md R110 to R122). LOAD reads no register and no
`sp`, and never touches the other slot (R110). -/

namespace Sys2Proof.Machine

/-- LOAD in mode REG (R111): no extra word. -/
def execLoadReg (sl : SlotId) (r : RegIdx) (s : State) : Host.Outcome State Fault Refusal :=
  answerNone (s.latchPlain sl (Mode.reg r).desc)

/-- LOAD in mode IND (R112): no extra word. -/
def execLoadInd (sl : SlotId) (r : RegIdx) (s : State) : Host.Outcome State Fault Refusal :=
  answerNone (s.latchPlain sl (Mode.ind r).desc)

/-- LOAD in mode IDX (R113): the extra word is fetched. -/
def execLoadIdx (sl : SlotId) (r : RegIdx) (s : State) : Host.Outcome State Fault Refusal :=
  answerNone (s.latchExtra sl (Mode.idx r).desc)

/-- LOAD in mode STK (R114): no extra word. -/
def execLoadStk (sl : SlotId) (s : State) : Host.Outcome State Fault Refusal :=
  answerNone (s.latchPlain sl Mode.stk.desc)

/-- LOAD in mode PEEK (R115): no extra word. -/
def execLoadPeek (sl : SlotId) (s : State) : Host.Outcome State Fault Refusal :=
  answerNone (s.latchPlain sl Mode.peek.desc)

/-- LOAD in mode PICK (R116): the extra word is fetched. -/
def execLoadPick (sl : SlotId) (s : State) : Host.Outcome State Fault Refusal :=
  answerNone (s.latchExtra sl Mode.pick.desc)

/-- LOAD in mode SPD (R117): no extra word. -/
def execLoadSpd (sl : SlotId) (s : State) : Host.Outcome State Fault Refusal :=
  answerNone (s.latchPlain sl Mode.spd.desc)

/-- LOAD in mode PCD (R118): no extra word. -/
def execLoadPcd (sl : SlotId) (s : State) : Host.Outcome State Fault Refusal :=
  answerNone (s.latchPlain sl Mode.pcd.desc)

/-- LOAD in mode EXD (R119): no extra word. -/
def execLoadExd (sl : SlotId) (s : State) : Host.Outcome State Fault Refusal :=
  answerNone (s.latchPlain sl Mode.exd.desc)

/-- LOAD in mode ABS (R120): the extra word is fetched. -/
def execLoadAbs (sl : SlotId) (s : State) : Host.Outcome State Fault Refusal :=
  answerNone (s.latchExtra sl Mode.abs.desc)

/-- LOAD in mode IMM (R121): the extra word is fetched. -/
def execLoadImm (sl : SlotId) (s : State) : Host.Outcome State Fault Refusal :=
  answerNone (s.latchExtra sl Mode.imm.desc)

/-- LOAD in mode LIT (R122): no extra word. -/
def execLoadLit (sl : SlotId) (n : BitVec 5) (s : State) : Host.Outcome State Fault Refusal :=
  answerNone (s.latchPlain sl (Mode.lit n).desc)

end Sys2Proof.Machine
end

