-- ==== Sys2Proof/Machine/MachineState.lean ====
section
/-! DEFINITION. The Machine State commands on memory, registers, fetch and stack addresses, and the accessors and
mutators of the special registers (spec/40_machine_state_ops.md R81 to R97). -/

namespace Sys2Proof.Machine

/-- RDMEM (R81). -/
def execRdmem (addr : Word) (s : State) : Host.Outcome State Fault Refusal :=
  answerWord (s.memRead addr.toNat)

/-- WRMEM (R82). -/
def execWrmem (addr : Word) (wdata : Int) (s : State) : Host.Outcome State Fault Refusal :=
  answerNone (s.memWrite addr.toNat wdata)

/-- RDREG (R83): no cycle, no change of state. -/
def execRdreg (idx : RegIdx) (s : State) : Host.Outcome State Fault Refusal :=
  answerWord (s.reg idx, s)

/-- WRREG (R84). -/
def execWrreg (idx : RegIdx) (wdata : Int) (s : State) : Host.Outcome State Fault Refusal :=
  answerNone (s.setReg idx wdata)

/-- NEXTWORD (R85). -/
def execNextword (s : State) : Host.Outcome State Fault Refusal :=
  answerWord s.nextWord

/-- PUSHSLOT (R86): the address only, no memory access. -/
def execPushslot (s : State) : Host.Outcome State Fault Refusal :=
  answerWord s.pushSlot

/-- POPSLOT (R87): the address only, no memory access. -/
def execPopslot (s : State) : Host.Outcome State Fault Refusal :=
  answerWord s.popSlot

/-- PEEKADDR (R88). -/
def execPeekaddr (s : State) : Host.Outcome State Fault Refusal :=
  answerWord (s.peekAddress, s)

/-- GETPC (R89). -/
def execGetpc (s : State) : Host.Outcome State Fault Refusal :=
  answerWord (s.pc, s)

/-- SETPC (R90): a jump. -/
def execSetpc (wdata : Int) (s : State) : Host.Outcome State Fault Refusal :=
  answerNone { s with pc := norm16 wdata }

/-- GETSP (R91). -/
def execGetsp (s : State) : Host.Outcome State Fault Refusal :=
  answerWord (s.sp, s)

/-- SETSP (R92). -/
def execSetsp (wdata : Int) (s : State) : Host.Outcome State Fault Refusal :=
  answerNone { s with sp := norm16 wdata }

/-- GETEX (R93). -/
def execGetex (s : State) : Host.Outcome State Fault Refusal :=
  answerWord (s.ex, s)

/-- SETEX (R94). -/
def execSetex (wdata : Int) (s : State) : Host.Outcome State Fault Refusal :=
  answerNone { s with ex := norm16 wdata }

/-- GETIA (R95). -/
def execGetia (s : State) : Host.Outcome State Fault Refusal :=
  answerWord (s.ia, s)

/-- SETIA (R96): it stores a word and nothing else (R191). -/
def execSetia (wdata : Int) (s : State) : Host.Outcome State Fault Refusal :=
  answerNone { s with ia := norm16 wdata }

/-- GETCYC (R97): reading the counter is no memory access. -/
def execGetcyc (s : State) : Host.Outcome State Fault Refusal :=
  .next (s.respond (.count s.cyc))

end Sys2Proof.Machine
end

