-- ==== Sys2Proof/Machine/Reset.lean ====
section
/-! DEFINITION. RESET (spec/70_reset_and_hazards.md R210). -/

namespace Sys2Proof.Machine

/-- RESET (R210): "Construct/reset a Machine State"; every field takes its reset value, memory included (D18). -/
def execReset (s : State) : Host.Outcome State Fault Refusal :=
  answerNone s.resetCore

end Sys2Proof.Machine
end

