-- ==== Sys2Proof/Machine/Set.lean ====
section
/-! DEFINITION. SET in each of the twelve modes (spec/43_resolver_set.md R150 to R162). The mode, with its register
index, is that of the slot's descriptor (R61; log 19). SET never changes a slot (R150). -/

namespace Sys2Proof.Machine

/-- SET in mode REG, register direct (R151). -/
def execSetReg (sl : SlotId) (r : RegIdx) (wdata : Int) (s : State) : Host.Outcome State Fault Refusal :=
  s.withLoaded sl fun _ => answerNone (s.setReg r wdata)

/-- SET in mode IND, register indirect (R152). -/
def execSetInd (sl : SlotId) (r : RegIdx) (wdata : Int) (s : State) : Host.Outcome State Fault Refusal :=
  s.withLoaded sl fun _ => answerNone (s.memWrite (s.indAddr r) wdata)

/-- SET in mode IDX, register indirect plus offset (R153). -/
def execSetIdx (sl : SlotId) (r : RegIdx) (wdata : Int) (s : State) : Host.Outcome State Fault Refusal :=
  s.withLoaded sl fun v => answerNone (s.memWrite (s.idxAddr r v.extra) wdata)

/-- SET in mode STK, push (R154). -/
def execSetStk (sl : SlotId) (wdata : Int) (s : State) : Host.Outcome State Fault Refusal :=
  s.withLoaded sl fun _ => answerNone (s.pushWord wdata)

/-- SET in mode PEEK, peek (R155). -/
def execSetPeek (sl : SlotId) (wdata : Int) (s : State) : Host.Outcome State Fault Refusal :=
  s.withLoaded sl fun _ => answerNone (s.memWrite s.peekAddr wdata)

/-- SET in mode PICK, pick n (R156). -/
def execSetPick (sl : SlotId) (wdata : Int) (s : State) : Host.Outcome State Fault Refusal :=
  s.withLoaded sl fun v => answerNone (s.memWrite (s.pickAddr v.extra) wdata)

/-- SET in mode SPD, SP direct (R157). -/
def execSetSpd (sl : SlotId) (wdata : Int) (s : State) : Host.Outcome State Fault Refusal :=
  s.withLoaded sl fun _ => answerNone { s with sp := norm16 wdata }

/-- SET in mode PCD, PC direct (R158). -/
def execSetPcd (sl : SlotId) (wdata : Int) (s : State) : Host.Outcome State Fault Refusal :=
  s.withLoaded sl fun _ => answerNone { s with pc := norm16 wdata }

/-- SET in mode EXD, EX direct (R159). -/
def execSetExd (sl : SlotId) (wdata : Int) (s : State) : Host.Outcome State Fault Refusal :=
  s.withLoaded sl fun _ => answerNone { s with ex := norm16 wdata }

/-- SET in mode ABS, absolute memory (R160). -/
def execSetAbs (sl : SlotId) (wdata : Int) (s : State) : Host.Outcome State Fault Refusal :=
  s.withLoaded sl fun v => answerNone (s.memWrite (absAddr v.extra) wdata)

/-- SET in mode IMM, immediate next word (R161): the write is discarded, a no-op that raises nothing. -/
def execSetImm (sl : SlotId) (_ : Int) (s : State) : Host.Outcome State Fault Refusal :=
  s.withLoaded sl fun _ => answerNone s

/-- SET in mode LIT, small literal (R162): the write is discarded, a no-op that raises nothing. -/
def execSetLit (sl : SlotId) (_ : BitVec 5) (_ : Int) (s : State) : Host.Outcome State Fault Refusal :=
  s.withLoaded sl fun _ => answerNone s

end Sys2Proof.Machine
end

