-- ==== Sys2Proof/Machine/Dispatch.lean ====
section
/-! DEFINITION. The dispatch of an instruction to its meaning: one arm per row of spec/opcode_table.json. -/

namespace Sys2Proof.Machine

def exec (i : Instr) (s : State) : Host.Outcome State Fault Refusal :=
  match i with
  | .reset => Sys2Proof.Machine.execReset s
  | .rdmem addr => Sys2Proof.Machine.execRdmem addr s
  | .wrmem addr wdata => Sys2Proof.Machine.execWrmem addr wdata s
  | .rdreg idx => Sys2Proof.Machine.execRdreg idx s
  | .wrreg idx wdata => Sys2Proof.Machine.execWrreg idx wdata s
  | .nextword => Sys2Proof.Machine.execNextword s
  | .pushslot => Sys2Proof.Machine.execPushslot s
  | .popslot => Sys2Proof.Machine.execPopslot s
  | .peekaddr => Sys2Proof.Machine.execPeekaddr s
  | .getpc => Sys2Proof.Machine.execGetpc s
  | .setpc wdata => Sys2Proof.Machine.execSetpc wdata s
  | .getsp => Sys2Proof.Machine.execGetsp s
  | .setsp wdata => Sys2Proof.Machine.execSetsp wdata s
  | .getex => Sys2Proof.Machine.execGetex s
  | .setex wdata => Sys2Proof.Machine.execSetex wdata s
  | .getia => Sys2Proof.Machine.execGetia s
  | .setia wdata => Sys2Proof.Machine.execSetia wdata s
  | .getcyc => Sys2Proof.Machine.execGetcyc s
  | .loadReg sl r => Sys2Proof.Machine.execLoadReg sl r s
  | .loadInd sl r => Sys2Proof.Machine.execLoadInd sl r s
  | .loadIdx sl r => Sys2Proof.Machine.execLoadIdx sl r s
  | .loadStk sl => Sys2Proof.Machine.execLoadStk sl s
  | .loadPeek sl => Sys2Proof.Machine.execLoadPeek sl s
  | .loadPick sl => Sys2Proof.Machine.execLoadPick sl s
  | .loadSpd sl => Sys2Proof.Machine.execLoadSpd sl s
  | .loadPcd sl => Sys2Proof.Machine.execLoadPcd sl s
  | .loadExd sl => Sys2Proof.Machine.execLoadExd sl s
  | .loadAbs sl => Sys2Proof.Machine.execLoadAbs sl s
  | .loadImm sl => Sys2Proof.Machine.execLoadImm sl s
  | .loadLit sl n => Sys2Proof.Machine.execLoadLit sl n s
  | .getReg sl r => Sys2Proof.Machine.execGetReg sl r s
  | .getInd sl r => Sys2Proof.Machine.execGetInd sl r s
  | .getIdx sl r => Sys2Proof.Machine.execGetIdx sl r s
  | .getStk sl => Sys2Proof.Machine.execGetStk sl s
  | .getPeek sl => Sys2Proof.Machine.execGetPeek sl s
  | .getPick sl => Sys2Proof.Machine.execGetPick sl s
  | .getSpd sl => Sys2Proof.Machine.execGetSpd sl s
  | .getPcd sl => Sys2Proof.Machine.execGetPcd sl s
  | .getExd sl => Sys2Proof.Machine.execGetExd sl s
  | .getAbs sl => Sys2Proof.Machine.execGetAbs sl s
  | .getImm sl => Sys2Proof.Machine.execGetImm sl s
  | .getLit sl n => Sys2Proof.Machine.execGetLit sl n s
  | .setReg sl r wdata => Sys2Proof.Machine.execSetReg sl r wdata s
  | .setInd sl r wdata => Sys2Proof.Machine.execSetInd sl r wdata s
  | .setIdx sl r wdata => Sys2Proof.Machine.execSetIdx sl r wdata s
  | .setStk sl wdata => Sys2Proof.Machine.execSetStk sl wdata s
  | .setPeek sl wdata => Sys2Proof.Machine.execSetPeek sl wdata s
  | .setPick sl wdata => Sys2Proof.Machine.execSetPick sl wdata s
  | .setSpd sl wdata => Sys2Proof.Machine.execSetSpd sl wdata s
  | .setPcd sl wdata => Sys2Proof.Machine.execSetPcd sl wdata s
  | .setExd sl wdata => Sys2Proof.Machine.execSetExd sl wdata s
  | .setAbs sl wdata => Sys2Proof.Machine.execSetAbs sl wdata s
  | .setImm sl wdata => Sys2Proof.Machine.execSetImm sl wdata s
  | .setLit sl n wdata => Sys2Proof.Machine.execSetLit sl n wdata s
  | .encReg r => Sys2Proof.Machine.execEncReg r s
  | .encInd r => Sys2Proof.Machine.execEncInd r s
  | .encIdx r => Sys2Proof.Machine.execEncIdx r s
  | .encStk => Sys2Proof.Machine.execEncStk s
  | .encPeek => Sys2Proof.Machine.execEncPeek s
  | .encPick => Sys2Proof.Machine.execEncPick s
  | .encSpd => Sys2Proof.Machine.execEncSpd s
  | .encPcd => Sys2Proof.Machine.execEncPcd s
  | .encExd => Sys2Proof.Machine.execEncExd s
  | .encAbs => Sys2Proof.Machine.execEncAbs s
  | .encImm => Sys2Proof.Machine.execEncImm s
  | .encLit n => Sys2Proof.Machine.execEncLit n s

end Sys2Proof.Machine
end

