-- ==== Sys2Proof/Machine/Step.lean ====
section
/-! DEFINITION. One step: the next command the dispatcher presents is decoded and run (spec/00_scope.md R9:
"one command is one atomic transition"). -/

namespace Sys2Proof.Machine

/-- One transition. With no command presented nothing changes: "no state changes between commands" (R9; log 2:
DEDUCED). An input that stands for no instruction is refused (R200, R201). -/
def step (s : State) : Host.Outcome State Fault Refusal :=
  match s.takeInput with
  | none => .next s
  | some (inp, s') =>
    match s.decodeInput inp with
    | .ok i => exec i s'
    | .error e => .refused (refusalOf e)

/-- `s` with the command of a table row's bits presented next (log 1, log 15). -/
def State.withFetchWord (s : State) (nbits w : Nat) : State := s.presentTableWord nbits w

end Sys2Proof.Machine
end

