-- ==== Sys2Proof/Safety.lean ====
section
/-! DEFINITION. The terms in which claims are made: the invariant of the state, which inputs are accepted, a
command stream that keeps the resolver contract, and the cycle cost of each command. -/

namespace Sys2Proof.Machine

/-- `MEM_INIT` is a memory of the machine: canonical, and inside `mem[0..MEMSIZE-1]` (R8, R30). -/
def paramsOk (p : Params) : Bool := p.memInit.wf && p.memInit.inside p.memSize

/-- A loaded slot has an extra word exactly when its descriptor needs one (10_state.md R31). -/
def Slot.consistent (v : Slot) : Bool := !v.loaded || v.hasExtra == needsExtra v.enc

/-- The invariant: memory is canonical and lies inside `mem[0..MEMSIZE-1]` (R30), `MEM_INIT` too, and both
slots are consistent (R31). -/
def State.inv (s : State) : Bool :=
  s.mem.wf && s.mem.inside s.memSize && paramsOk s.params && s.slotB.consistent && s.slotA.consistent

/-- The inputs that have a meaning in state `s` (00_scope.md R12): every one but an unassigned command code
(R200) and GET or SET on a slot that is not loaded (R201). -/
def State.accepts (s : State) : Input → Bool
  | .descriptor _ => true
  | .command t => t.assigned && (!t.encFromSlot || (s.slot (slotOfBit t.slot)).loaded)

/-- A command stream that keeps the resolver contract (44_sequencing_and_control.md R170, 70_reset_and_hazards.md
R219): codes are assigned, and each GET and SET addresses a slot that is loaded, by an earlier LOAD of the
stream with no RESET after it, or from the start (`b`, `a` say which slots are loaded at the start). -/
def keepsContract (b a : Bool) : List Input → Bool
  | [] => true
  | .descriptor _ :: rest => keepsContract b a rest
  | .command t :: rest =>
    if t.cmd = 0x00 then keepsContract false false rest
    else if t.cmd = 0x12 then
      match slotOfBit t.slot with
      | .b => keepsContract true a rest
      | .a => keepsContract b true rest
    else if t.encFromSlot then
      match slotOfBit t.slot with
      | .b => b && keepsContract b a rest
      | .a => a && keepsContract b a rest
    else t.assigned && keepsContract b a rest

/-- The table of 70_reset_and_hazards.md R221: what a command adds to `cyc`. RESET, which sets `cyc` to 0, and
the OPERAND6 rows, which are no commands, add nothing. -/
def cycCost : Instr → Nat
  | .rdmem _ | .wrmem _ _ | .nextword | .loadIdx _ _ | .loadPick _ | .loadAbs _ | .loadImm _ | .getInd _ _
  | .getIdx _ _ | .getStk _ | .getPeek _ | .getPick _ | .getAbs _ | .setInd _ _ _ | .setIdx _ _ _
  | .setStk _ _ | .setPeek _ _ | .setPick _ _ | .setAbs _ _ => 1
  | .reset | .rdreg _ | .wrreg _ _ | .pushslot | .popslot | .peekaddr | .getpc | .setpc _ | .getsp | .setsp _
  | .getex | .setex _ | .getia | .setia _ | .getcyc | .loadReg _ _ | .loadInd _ _ | .loadStk _ | .loadPeek _
  | .loadSpd _ | .loadPcd _ | .loadExd _ | .loadLit _ _ | .getReg _ _ | .getSpd _ | .getPcd _ | .getExd _
  | .getImm _ | .getLit _ _ | .setReg _ _ _ | .setSpd _ _ | .setPcd _ _ | .setExd _ _ | .setImm _ _
  | .setLit _ _ _ | .encReg _ | .encInd _ | .encIdx _ | .encStk | .encPeek | .encPick | .encSpd | .encPcd
  | .encExd | .encAbs | .encImm | .encLit _ => 0

end Sys2Proof.Machine
end

