-- ==== Sys2Proof/Certificates/Slice0/Obligations.lean ====
section
/-! DEFINITION. The statements for the provers, from the numbered rules of spec/. Each docstring names its rule.
The helper predicates under `Sys2Proof.Claims` say a shape once that several statements share. -/

namespace Sys2Proof.Claims

open Sys2Proof.Machine

/-- `i` run in `s` completes and returns the word `w`; it adds `n` to `cyc`, leaves `sp` at `sp'` and every other
part of the state as it was. -/
def Returns (i : Instr) (s : State) (sp' : Word) (n : Nat) (w : Word) : Prop :=
  exec i s = .next { s with sp := sp', cyc := s.cyc + n, response := .word w }

/-- `i` run in `s` completes, returns nothing, adds 1 to `cyc` and leaves `sp` at `sp'`; the cell that `addr`
reaches holds `norm16 v`, every other cell reads as before, and no other part of the state changes. -/
def Stores (i : Instr) (s : State) (sp' : Word) (addr : Nat) (v : Int) : Prop :=
  ∃ t, exec i s = .next t ∧
    t = { s with mem := t.mem, sp := sp', cyc := s.cyc + 1, response := .none } ∧
    ∀ k, t.mem.read k = if k = addr % s.memSize then norm16 v else s.mem.read k

/-- `i` run in any state completes as a LOAD of `e` into slot `sl` that takes no extra word: the slot is loaded
with `e` and no extra word (its `extra` is open, log 11), the other slot and the rest of the state stay. -/
def LatchesPlain (i : Instr) (sl : SlotId) (e : Nat) : Prop :=
  ∀ s, ∃ t, exec i s = .next t ∧
    t = { s with slotB := t.slotB, slotA := t.slotA, freeCount := t.freeCount, response := .none } ∧
    (∀ j, j ≠ sl → t.slot j = s.slot j) ∧
    (t.slot sl).loaded = true ∧ (t.slot sl).enc.toNat = e ∧ (t.slot sl).hasExtra = false

/-- `i` run in any state completes as a LOAD of `e` into slot `sl` that takes an extra word: the word at `pc` is
latched, `pc` advances by 1 modulo 65536, `cyc` by 1; the other slot and the rest of the state stay. -/
def LatchesExtra (i : Instr) (sl : SlotId) (e : Nat) : Prop :=
  ∀ s, ∃ t, exec i s = .next t ∧
    t = { s with slotB := t.slotB, slotA := t.slotA, pc := BitVec.ofNat 16 (s.pc.toNat + 1), cyc := s.cyc + 1,
                 response := .none } ∧
    (∀ j, j ≠ sl → t.slot j = s.slot j) ∧
    t.slot sl = { loaded := true, enc := BitVec.ofNat 6 e, hasExtra := true,
                  extra := s.mem.read (s.pc.toNat % s.memSize) }

/-- `f` on the next state; a fault or a refusal stays. -/
def mapNext (f : State → State) : Host.Outcome State Fault Refusal → Host.Outcome State Fault Refusal
  | .next t => .next (f t)
  | .fault r => .fault r
  | .refused r => .refused r

/-- The transaction NEXTWORD. -/
def nextwordCmd : Input := encode .nextword

/-- The transaction `LOAD sl, e`. -/
def loadCmd (sl : SlotId) (e : Desc) : Input := encode (loadInstr sl (classify e))

/-- 1 if the descriptor takes an extra word, else 0 (R79 "counting a boolean as 0 or 1"). -/
def extraWords (e : Desc) : Nat := if needsExtra e then 1 else 0

/-- Whether an instruction reads memory: the commands of R41 that call `MemRead`. -/
def readsMem : Instr → Bool
  | .rdmem _ | .nextword | .loadIdx _ _ | .loadPick _ | .loadAbs _ | .loadImm _ | .getInd _ _ | .getIdx _ _
  | .getStk _ | .getPeek _ | .getPick _ | .getAbs _ => true
  | _ => false

/-- The cell an instruction stores to in state `s`, if it stores: the commands of R41 that call `MemWrite`, each
with the address its meaning uses. -/
def storeCell (i : Instr) (s : State) : Option Nat :=
  match i with
  | .wrmem addr _ => some (s.cellOf addr.toNat)
  | .setInd _ r _ => some (s.cellOf (s.indAddr r))
  | .setIdx sl r _ => some (s.cellOf (s.idxAddr r (s.slot sl).extra))
  | .setStk _ _ => some (s.cellOf (decr s.sp).toNat)
  | .setPeek _ _ => some (s.cellOf s.peekAddr)
  | .setPick sl _ => some (s.cellOf (s.pickAddr (s.slot sl).extra))
  | .setAbs sl _ => some (s.cellOf (absAddr (s.slot sl).extra))
  | _ => none

/-- The state after the instructions `is`, if each of them completes. -/
def runInstrs : List Instr → State → Option State
  | [], s => some s
  | i :: is, s =>
    match exec i s with
    | .next t => runInstrs is t
    | .fault _ => none
    | .refused _ => none

/-- Along `is` from `s` no instruction is RESET and none stores to the cell `k`. -/
def SparesCell (k : Nat) : List Instr → State → Prop
  | [], _ => True
  | i :: is, s => i ≠ .reset ∧ storeCell i s ≠ some k ∧ ∀ t, exec i s = .next t → SparesCell k is t

/-- The instructions `is` complete one after another from `s`, and the last returns `w`. -/
def EndsReturning (is : List Instr) (s : State) (w : Word) : Prop :=
  ∃ t, runInstrs is s = some t ∧ t.response = .word w

/-- The instructions `is` complete one after another from `s`, and of memory they change only the cell that `addr`
reaches, to `norm16 v`. -/
def EndsStoring (is : List Instr) (s : State) (addr : Nat) (v : Int) : Prop :=
  ∃ t, runInstrs is s = some t ∧
    ∀ k, t.mem.read k = if k = addr % s.memSize then norm16 v else s.mem.read k

end Sys2Proof.Claims

open Sys2Proof Sys2Proof.Machine

/-- norm16 is v mod 65536 for v >= 0 and (|v| + 32768) mod 65536 for v < 0. R80: the normaliser, which is not two's complement. -/
def Obligations.NormalisationFollowsTheFormula : Prop :=
  ∀ v : Int,
    ((norm16 v).toNat : Int) = (if 0 ≤ v then v % 65536 else (|v| + 32768) % 65536) ∧
      (0 ≤ v → v ≤ 0xFFFF → ((norm16 v).toNat : Int) = v)

/-- norm16 lands in [0, 0xFFFF], is idempotent, and is not a ring homomorphism. R98: range, idempotence, and the warning. -/
def Obligations.NormalisationIsIdempotentAndBounded : Prop :=
  (∀ v : Int, (norm16 v).toNat ≤ 0xFFFF ∧ norm16 ((norm16 v).toNat : Int) = norm16 v) ∧
    (norm16 (-1)).toNat + 1 = 0x8002 ∧ ¬ ∀ v : Int, ((norm16 v).toNat : Int) = v % 65536

/-- RDMEM returns mem[addr mod MEMSIZE], adds 1 to cyc and changes nothing else. R81, with its frame. -/
def Obligations.RdmemReadsTheFoldedCell : Prop :=
  ∀ (addr : Word) (s : State),
    Claims.Returns (.rdmem addr) s s.sp 1 (s.mem.read (addr.toNat % s.memSize))

/-- WRMEM stores norm16(wdata) in one cell, adds 1 to cyc, and the next fetch of that cell sees it. R82, with its frame. -/
def Obligations.WrmemStoresOneNormalisedCell : Prop :=
  ∀ (addr : Word) (v : Int) (s : State), s.mem.wf = true →
    Claims.Stores (.wrmem addr v) s s.sp addr.toNat v ∧
      ∃ t u, exec (.wrmem addr v) s = .next t ∧ exec .nextword t = .next u ∧
        (s.pc.toNat % s.memSize = addr.toNat % s.memSize → u.response = .word (norm16 v))

/-- WRMEM a, v followed by RDMEM a returns norm16(v); the pair adds 2 to cyc. R99; its clause on cyc is marked there "[derived: from rules R81, R82]". -/
def Obligations.WriteThenReadReturnsTheNormalisedValue : Prop :=
  ∀ (addr : Word) (v : Int) (s : State), s.mem.wf = true →
    ∃ t u, exec (.wrmem addr v) s = .next t ∧ exec (.rdmem addr) t = .next u ∧
      u.response = .word (norm16 v) ∧ u.cyc = s.cyc + 2

/-- A read changes only cyc, and two reads of one address with no write to its cell between return the same word. R47. -/
def Obligations.ReadsAreIdempotent : Prop :=
  ∀ (addr : Word) (s : State), ∃ t, exec (.rdmem addr) s = .next t ∧
    t = { s with cyc := s.cyc + 1, response := t.response } ∧
    ∀ (is : List Instr) (u : State), s.mem.wf = true → Claims.SparesCell (s.cellOf addr.toNat) is t →
      Claims.runInstrs is t = some u → ∃ w, exec (.rdmem addr) u = .next w ∧ w.response = t.response

/-- After any sequence of WRMEMs each cell reads as the last value written to it, or as before. R49: memory is sequentially consistent. The words before RESET are those of `s`; after RESET those of MEM_INIT (R210). -/
def Obligations.ReadReturnsTheMostRecentWrite : Prop :=
  ∀ (ws : List (Word × Int)) (s : State), s.mem.wf = true →
    s.pending = ws.map (fun p => encode (.wrmem p.1 p.2)) →
    ∃ t, Host.Core.run core ws.length s = .next t ∧
      (∀ k, t.mem.read k =
        ws.foldl (fun w p => if p.1.toNat % s.memSize = k then norm16 p.2 else w) (s.mem.read k)) ∧
      ∀ a : Word, ∃ u, exec (.rdmem a) t = .next u ∧ u.response = .word (t.mem.read (a.toNat % s.memSize))

/-- Equal addresses modulo MEMSIZE alias, and the sums of IDX and PICK act as 16-bit sums with the carry dropped. R42, on the spec's decision D8 (log 14). -/
def Obligations.AddressSumsAreSixteenBitSums : Prop :=
  ∀ (s : State) (sl : SlotId) (v : Int),
    (∀ a b : Word, a.toNat % s.memSize = b.toNat % s.memSize →
        exec (.rdmem a) s = exec (.rdmem b) s ∧ exec (.wrmem a v) s = exec (.wrmem b v) s) ∧
      ((s.slot sl).loaded = true →
        (∀ r, exec (.getIdx sl r) s = exec (.rdmem (s.reg r + (s.slot sl).extra)) s ∧
            exec (.setIdx sl r v) s = exec (.wrmem (s.reg r + (s.slot sl).extra) v) s) ∧
        exec (.getPick sl) s = exec (.rdmem (s.sp + (s.slot sl).extra)) s ∧
        exec (.setPick sl v) s = exec (.wrmem (s.sp + (s.slot sl).extra) v) s)

/-- RDREG returns x[idx]; WRREG stores norm16(wdata) in x[idx] and changes nothing else. R83, R84, with the frame. -/
def Obligations.RegisterReadsAndWrites : Prop :=
  ∀ (idx : RegIdx) (v : Int) (s : State),
    Claims.Returns (.rdreg idx) s s.sp 0 (s.reg idx) ∧
      ∃ t, exec (.wrreg idx v) s = .next t ∧ t = { s with x := t.x, response := .none } ∧
        ∀ j, t.reg j = if j = idx then norm16 v else s.reg j

/-- NEXTWORD returns mem[pc mod MEMSIZE], then pc is (pc + 1) mod 65536 and cyc one more. R85, with its frame. -/
def Obligations.NextwordFetchesThenAdvances : Prop :=
  ∀ s : State, exec .nextword s = .next
    { s with pc := BitVec.ofNat 16 (s.pc.toNat + 1), cyc := s.cyc + 1,
             response := .word (s.mem.read (s.pc.toNat % s.memSize)) }

/-- POPSLOT returns sp and then increments it; PEEKADDR returns sp and changes nothing; neither counts a cycle. R87, R88, with their frames. -/
def Obligations.PopslotAndPeekaddrReturnTheTop : Prop :=
  ∀ s : State,
    Claims.Returns .popslot s (BitVec.ofNat 16 (s.sp.toNat + 1)) 0 s.sp ∧
      Claims.Returns .peekaddr s s.sp 0 s.sp ∧ exec .peekaddr s = exec .getsp s

/-- PUSHSLOT sets sp to (sp - 1) mod 65536 and returns it; at sp = 0 that is 0xFFFF (the spec's decision D7). R86, with its frame; the wrap at 0 is decision D7 (log 13). -/
def Obligations.PushslotDecrementsModulo65536 : Prop :=
  ∀ s : State,
    Claims.Returns .pushslot s (BitVec.ofNat 16 (s.sp.toNat + 65535)) 0 (BitVec.ofNat 16 (s.sp.toNat + 65535))

/-- POPSLOT then PUSHSLOT, and PUSHSLOT then POPSLOT, leave sp as it was, from every sp. R101; at sp = 0 it rests on decision D7 (log 13). -/
def Obligations.PushAndPopAddressesAreInverses : Prop :=
  ∀ s : State,
    (∃ t u, exec .popslot s = .next t ∧ exec .pushslot t = .next u ∧ u.sp = s.sp ∧ u.response = .word s.sp) ∧
      ∃ t u, exec .pushslot s = .next t ∧ exec .popslot t = .next u ∧ u.sp = s.sp ∧
        t.response = .word (BitVec.ofNat 16 (s.sp.toNat + 65535)) ∧ u.response = t.response

/-- GETPC, GETSP, GETEX, GETIA and GETCYC return their register and change nothing. R91, R93 whole; of R89, R95, R97 the value returned and the frame. -/
def Obligations.AccessorsReturnTheirRegister : Prop :=
  ∀ s : State,
    Claims.Returns .getpc s s.sp 0 s.pc ∧ Claims.Returns .getsp s s.sp 0 s.sp ∧
      Claims.Returns .getex s s.sp 0 s.ex ∧ Claims.Returns .getia s s.sp 0 s.ia ∧
      exec .getcyc s = .next { s with response := .count s.cyc }

/-- SETSP, SETEX and SETIA store norm16(wdata) in their register and change nothing else. R92, R94, R96, with their frames. -/
def Obligations.MutatorsStoreTheNormalisedValue : Prop :=
  ∀ (v : Int) (s : State),
    exec (.setsp v) s = .next { s with sp := norm16 v, response := .none } ∧
      exec (.setex v) s = .next { s with ex := norm16 v, response := .none } ∧
      exec (.setia v) s = .next { s with ia := norm16 v, response := .none }

/-- SETPC, and SET in mode PCD on a loaded slot, set pc to norm16(wdata), and the next NEXTWORD fetches from there. R90, R158. -/
def Obligations.WritingPcIsAJump : Prop :=
  ∀ (v : Int) (sl : SlotId) (s : State) (i : Instr),
    (i = .setpc v ∨ (i = .setPcd sl v ∧ (s.slot sl).loaded = true)) →
    ∃ t u, exec i s = .next t ∧ t = { s with pc := norm16 v, response := .none } ∧
      exec .nextword t = .next u ∧ u.response = .word (s.mem.read ((norm16 v).toNat % s.memSize)) ∧
      u.pc = BitVec.ofNat 16 ((norm16 v).toNat + 1)

/-- LOAD in modes REG, IND, STK, PEEK, SPD, PCD, EXD, LIT latches the descriptor; pc, sp and cyc stay. R111, R112, R114, R115, R117, R118, R119, R122. -/
def Obligations.LoadWithoutExtraWordOnlyFillsItsSlot : Prop :=
  ∀ (sl : SlotId) (r : RegIdx) (n : BitVec 5),
    Claims.LatchesPlain (.loadReg sl r) sl (0x00 + r.toNat) ∧
      Claims.LatchesPlain (.loadInd sl r) sl (0x08 + r.toNat) ∧
      Claims.LatchesPlain (.loadStk sl) sl 0x18 ∧
      Claims.LatchesPlain (.loadPeek sl) sl 0x19 ∧
      Claims.LatchesPlain (.loadSpd sl) sl 0x1B ∧
      Claims.LatchesPlain (.loadPcd sl) sl 0x1C ∧
      Claims.LatchesPlain (.loadExd sl) sl 0x1D ∧
      Claims.LatchesPlain (.loadLit sl n) sl (0x20 + n.toNat)

/-- LOAD in modes IDX, PICK, ABS, IMM latches the descriptor and mem[pc], and advances pc and cyc by 1. R113, R116, R120, R121. -/
def Obligations.LoadWithExtraWordFetchesIt : Prop :=
  ∀ (sl : SlotId) (r : RegIdx),
    Claims.LatchesExtra (.loadIdx sl r) sl (0x10 + r.toNat) ∧
      Claims.LatchesExtra (.loadPick sl) sl 0x1A ∧
      Claims.LatchesExtra (.loadAbs sl) sl 0x1E ∧
      Claims.LatchesExtra (.loadImm sl) sl 0x1F

/-- GET in modes REG, SPD, PCD, EXD, IMM, LIT returns its register, latched word or literal; nothing changes. R131, R137, R138, R139, R141, R142, with their frames. -/
def Obligations.GetOfRegistersAndConstants : Prop :=
  ∀ (sl : SlotId) (r : RegIdx) (n : BitVec 5) (s : State), (s.slot sl).loaded = true →
    Claims.Returns (.getReg sl r) s s.sp 0 (s.reg r) ∧ Claims.Returns (.getSpd sl) s s.sp 0 s.sp ∧
      Claims.Returns (.getPcd sl) s s.sp 0 s.pc ∧ Claims.Returns (.getExd sl) s s.sp 0 s.ex ∧
      Claims.Returns (.getImm sl) s s.sp 0 (s.slot sl).extra ∧
      Claims.Returns (.getLit sl n) s s.sp 0 (BitVec.ofNat 16 n.toNat)

/-- GET in modes IND, IDX, PEEK, PICK, ABS returns the word at x[r], x[r]+w, sp, sp+w, w (folded) and adds 1 to cyc. R132, R133, R135, R136, R140, with their frames. -/
def Obligations.GetOfMemoryModesReadsOneCell : Prop :=
  ∀ (sl : SlotId) (r : RegIdx) (s : State), (s.slot sl).loaded = true →
    let w := (s.slot sl).extra.toNat
    Claims.Returns (.getInd sl r) s s.sp 1 (s.mem.read ((s.reg r).toNat % s.memSize)) ∧
      Claims.Returns (.getIdx sl r) s s.sp 1 (s.mem.read (((s.reg r).toNat + w) % s.memSize)) ∧
      Claims.Returns (.getPeek sl) s s.sp 1 (s.mem.read (s.sp.toNat % s.memSize)) ∧
      Claims.Returns (.getPick sl) s s.sp 1 (s.mem.read ((s.sp.toNat + w) % s.memSize)) ∧
      Claims.Returns (.getAbs sl) s s.sp 1 (s.mem.read (w % s.memSize))

/-- GET in mode STK returns the word at sp, increments sp and adds 1 to cyc; the cell read is not cleared. R134, with its frame. -/
def Obligations.GetOfStackModePops : Prop :=
  ∀ (sl : SlotId) (s : State), (s.slot sl).loaded = true →
    Claims.Returns (.getStk sl) s (BitVec.ofNat 16 (s.sp.toNat + 1)) 1 (s.mem.read (s.sp.toNat % s.memSize))

/-- SET in modes REG, SPD, EXD stores norm16(v) in the register and changes nothing else. R151, R157, R159, with their frames. -/
def Obligations.SetOfRegistersStoresTheNormalisedValue : Prop :=
  ∀ (sl : SlotId) (r : RegIdx) (v : Int) (s : State), (s.slot sl).loaded = true →
    (∃ t, exec (.setReg sl r v) s = .next t ∧ t = { s with x := t.x, response := .none } ∧
        ∀ j, t.reg j = if j = r then norm16 v else s.reg j) ∧
      exec (.setSpd sl v) s = .next { s with sp := norm16 v, response := .none } ∧
      exec (.setExd sl v) s = .next { s with ex := norm16 v, response := .none }

/-- SET in modes IND, IDX, PEEK, PICK, ABS stores norm16(v) at x[r], x[r]+w, sp, sp+w, w (folded), and only there. R152, R153, R155, R156, R160, with their frames. -/
def Obligations.SetOfMemoryModesStoresOneCell : Prop :=
  ∀ (sl : SlotId) (r : RegIdx) (v : Int) (s : State), (s.slot sl).loaded = true → s.mem.wf = true →
    let w := (s.slot sl).extra.toNat
    Claims.Stores (.setInd sl r v) s s.sp (s.reg r).toNat v ∧
      Claims.Stores (.setIdx sl r v) s s.sp ((s.reg r).toNat + w) v ∧
      Claims.Stores (.setPeek sl v) s s.sp s.sp.toNat v ∧
      Claims.Stores (.setPick sl v) s s.sp (s.sp.toNat + w) v ∧
      Claims.Stores (.setAbs sl v) s s.sp w v

/-- SET in mode STK decrements sp modulo 65536 and stores norm16(v) at the new sp (at sp = 0: decision D7). R154, with its frame; the wrap at 0 is decision D7 (log 13). -/
def Obligations.SetOfStackModePushes : Prop :=
  ∀ (sl : SlotId) (v : Int) (s : State), (s.slot sl).loaded = true → s.mem.wf = true →
    let top := BitVec.ofNat 16 (s.sp.toNat + 65535)
    Claims.Stores (.setStk sl v) s top top.toNat v

/-- SET in modes IMM and LIT changes nothing, and a GET after it returns the latched word or the literal. R161, R162. -/
def Obligations.SetOfImmediateOrLiteralIsANoOp : Prop :=
  ∀ (sl : SlotId) (n : BitVec 5) (v : Int) (s : State), (s.slot sl).loaded = true →
    (∃ t u, exec (.setImm sl v) s = .next t ∧ t = { s with response := .none } ∧
        exec (.getImm sl) t = .next u ∧ u.response = .word (s.slot sl).extra) ∧
      ∃ t u, exec (.setLit sl n v) s = .next t ∧ t = { s with response := .none } ∧
        exec (.getLit sl n) t = .next u ∧ u.response = .word (BitVec.ofNat 16 n.toNat)

/-- GET then SET in mode STK on one slot leaves sp (at sp = 0xFFFF: decision D7), rewrites the top cell and adds 2 to cyc. R178 (marked derived there); that sp ends where it began at sp = 0xFFFF is decision D7 (log 13). -/
def Obligations.PopThenPushOnOneSlotRewritesTheTop : Prop :=
  ∀ (sl : SlotId) (v : Int) (s : State), (s.slot sl).loaded = true → s.mem.wf = true →
    ∃ t u, exec (.getStk sl) s = .next t ∧ exec (.setStk sl v) t = .next u ∧
      t.response = .word (s.mem.read (s.sp.toNat % s.memSize)) ∧ u.sp = s.sp ∧ u.cyc = s.cyc + 2 ∧
      ∀ k, u.mem.read k = if k = s.sp.toNat % s.memSize then norm16 v else s.mem.read k

/-- GET and SET in every mode on a slot not loaded since RESET are refused by name (decision D13). R201 (log 17). -/
def Obligations.GetAndSetOnUnloadedSlotAreRefused : Prop :=
  ∀ (sl : SlotId) (v : Int) (m : Mode) (s : State), (s.slot sl).loaded = false →
    exec (getInstr sl m) s = .refused (.unloadedSlot sl) ∧
      exec (setInstr sl v m) s = .refused (.unloadedSlot sl) ∧
      ∀ rest, (s.pending = getTransaction sl :: rest ∨ s.pending = setTransaction sl v :: rest) →
        step s = .refused (.unloadedSlot sl)

/-- A transaction with a command code of 0x15 to 0x1F is refused by name (decision D16). R200 (log 16). -/
def Obligations.UnassignedCommandCodesAreRefused : Prop :=
  ∀ (t : Transaction) (rest : List Input) (s : State), s.pending = .command t :: rest → 0x15 ≤ t.cmd.toNat →
    step s = .refused (.unassignedCommand t.cmd)

/-- A step answers a next state exactly when the presented input is accepted; the only refusals are R200's and R201's. R12: totality (log 16, log 17). -/
def Obligations.EveryAcceptedCommandHasANextState : Prop :=
  ∀ (inp : Input) (rest : List Input) (s : State), s.pending = inp :: rest →
    ((∃ t, step s = .next t) ↔ s.accepts inp = true) ∧
      ∀ r, step s = .refused r → ∃ t, inp = .command t ∧
        ((0x15 ≤ t.cmd.toNat ∧ r = .unassignedCommand t.cmd) ∨
          (t.encFromSlot = true ∧ (s.slot (slotOfBit t.slot)).loaded = false ∧ r = .unloadedSlot (slotOfBit t.slot)))

/-- A command stream that loads each slot before it reads or writes it runs on without end (past its last command idle, log 2). R170, R201, R219; the steps past the end of the stream are idle ones (log 2: DEDUCED). -/
def Obligations.ContractKeepingStreamsNeverStop : Prop :=
  ∀ (s : State), keepsContract s.slotB.loaded s.slotA.loaded s.pending = true →
    ∀ k, ∃ t, Host.Core.run core k s = .next t

/-- RESET gives every field its reset value from the parameters, memory included, and unloads both slots. R210 (log 9, 11, 17, 21; the initial values are those of the parameters, log 24). -/
def Obligations.ResetRestoresEveryField : Prop :=
  ∀ s : State, ∃ t, exec .reset s = .next t ∧
    t = { s with x := s.params.initRegs, pc := 0, sp := s.params.spInit, ex := s.params.initEx,
                 ia := s.params.initIa, cyc := 0, mem := s.params.memInit, slotB := t.slotB, slotA := t.slotA,
                 response := .none, freeCount := t.freeCount } ∧
    t.slotB.loaded = false ∧ t.slotA.loaded = false

/-- State.reset: registers, ex, ia and memory 0, pc 0, sp 0xFFFF, cyc 0, slots not loaded, MEMSIZE 65536. R35; the zeros of the registers, ex, ia and memory are the defaults D4 and D5 (log 8, log 6: DESIGN CHOICE), pc = cyc = 0 is D3 (log 9: DEDUCED), the empty stream is the model's own (log 1). -/
def Obligations.ResetStateHoldsTheResetColumn : Prop :=
  (∀ r, State.reset.reg r = 0) ∧ State.reset.pc = 0 ∧ State.reset.sp = 0xFFFF ∧ State.reset.ex = 0 ∧
    State.reset.ia = 0 ∧ State.reset.cyc = 0 ∧ (∀ k, State.reset.mem.read k = 0) ∧
    (∀ sl, (State.reset.slot sl).loaded = false) ∧ State.reset.memSize = 65536 ∧ State.reset.pending = []

/-- Each 6-bit descriptor falls in its mode by the source's ranges, and exactly 0x10-0x17, 0x1A, 0x1E, 0x1F take an extra word. R62, R63, R66 to R77. -/
def Obligations.DescriptorRangesSelectTheModes : Prop :=
  ∀ e : Desc,
    (0x00 ≤ e.toNat → e.toNat ≤ 0x07 → classify e = .reg (BitVec.ofNat 3 (e.toNat - 0x00))) ∧
      (0x08 ≤ e.toNat → e.toNat ≤ 0x0F → classify e = .ind (BitVec.ofNat 3 (e.toNat - 0x08))) ∧
      (0x10 ≤ e.toNat → e.toNat ≤ 0x17 → classify e = .idx (BitVec.ofNat 3 (e.toNat - 0x10))) ∧
      (e.toNat = 0x18 → classify e = .stk) ∧
      (e.toNat = 0x19 → classify e = .peek) ∧
      (e.toNat = 0x1A → classify e = .pick) ∧
      (e.toNat = 0x1B → classify e = .spd) ∧
      (e.toNat = 0x1C → classify e = .pcd) ∧
      (e.toNat = 0x1D → classify e = .exd) ∧
      (e.toNat = 0x1E → classify e = .abs) ∧
      (e.toNat = 0x1F → classify e = .imm) ∧
      (0x20 ≤ e.toNat → classify e = .lit (BitVec.ofNat 5 (e.toNat - 0x20))) ∧
      (needsExtra e = true ↔
        ((0x10 ≤ e.toNat ∧ e.toNat ≤ 0x17) ∨ e.toNat = 0x1A ∨ e.toNat = 0x1E ∨ e.toNat = 0x1F))

/-- Each OPERAND6 row completes: it returns its mode and whether the mode takes an extra word, and changes nothing (the model's choice). R61, R62 (log 4: DESIGN CHOICE). -/
def Obligations.ClassifierRowsReturnTheMode : Prop :=
  ∀ (r : RegIdx) (n : BitVec 5) (s : State),
    exec (.encReg r) s = .next { s with response := .mode (.reg r) false } ∧
      exec (.encInd r) s = .next { s with response := .mode (.ind r) false } ∧
      exec (.encIdx r) s = .next { s with response := .mode (.idx r) true } ∧
      exec .encStk s = .next { s with response := .mode .stk false } ∧
      exec .encPeek s = .next { s with response := .mode .peek false } ∧
      exec .encPick s = .next { s with response := .mode .pick true } ∧
      exec .encSpd s = .next { s with response := .mode .spd false } ∧
      exec .encPcd s = .next { s with response := .mode .pcd false } ∧
      exec .encExd s = .next { s with response := .mode .exd false } ∧
      exec .encAbs s = .next { s with response := .mode .abs true } ∧
      exec .encImm s = .next { s with response := .mode .imm true } ∧
      exec (.encLit n) s = .next { s with response := .mode (.lit n) false }

/-- Decoding the encoding of any instruction gives it back, with every operand at every value. R61, R66 to R77 (log 15). -/
def Obligations.DecodeOfEncodeIsTheInstruction : Prop :=
  ∀ (i : Instr) (encB encA : Option Desc),
    (∀ sl m, i.slotMode = some (sl, m) → pickSlotEnc encB encA sl = some m.desc) →
    decode encB encA (encode i) = .ok i

/-- Every well-formed input that decodes is the encoding of its instruction, and encodings are well formed. R61, R10, R11 (log 15). -/
def Obligations.EncodeOfDecodeIsTheInput : Prop :=
  (∀ (inp : Input) (encB encA : Option Desc) (i : Instr), inp.wellFormed = true →
      decode encB encA inp = .ok i → encode i = inp) ∧
    ∀ i : Instr, (encode i).wellFormed = true

/-- Every selector with cmd <= 0x14 fits exactly one of the 54 rows, none with cmd >= 0x15 fits any, every descriptor fits one of 12. R61 (the codes are decision D11, log 15). -/
def Obligations.TableRowsAreExhaustiveAndExclusive : Prop :=
  ∀ (c : BitVec 5) (e : Desc),
    (selectorRows.filter (fun row => row.fits (c.toNat * 64 + e.toNat))).length =
        (if c.toNat ≤ 0x14 then 1 else 0) ∧
      (descriptorRows.filter (fun row => row.fits e.toNat)).length = 1 ∧
      selectorRows.length = 54 ∧ descriptorRows.length = 12

/-- A selector decodes to an instruction whose row it fits, and fails to decode exactly when cmd >= 0x15. R61, R78 (log 15, log 16). -/
def Obligations.DecodedInstructionFitsItsRow : Prop :=
  ∀ (c : BitVec 5) (e : Desc) (t : Transaction),
    (∀ i, decodeSelector (c ++ e) t = .ok i →
        i.row.fits (c.toNat * 64 + e.toNat) = true ∧ (0x12 ≤ c.toNat → i.bits = c.toNat * 64 + e.toNat)) ∧
      ((∃ err, decodeSelector (c ++ e) t = .error err) ↔ 0x15 ≤ c.toNat) ∧
      (encInstr (classify e)).row.fits e.toNat = true ∧ (encInstr (classify e)).bits = e.toNat

/-- The selectors and descriptors written out in the spec decode to the instructions it names. V12, R61; slot "b" and the value 0 of a table word are log 15 (DESIGN CHOICE), the none at 0x540 is log 16 (DEDUCED, decision D16). -/
def Obligations.SelectorsOfTheSpecDecodeAsWritten : Prop :=
  decodeTableWord 16 0x140 = some .nextword ∧ decodeTableWord 16 0x17F = some .nextword ∧
    decodeTableWord 16 0x491 = some (.loadIdx .b 1) ∧ decodeTableWord 16 0x4D8 = some (.getStk .b) ∧
    decodeTableWord 16 0x518 = some (.setStk .b 0) ∧ decodeTableWord 16 0x53F = some (.setLit .b 31 0) ∧
    decodeTableWord 16 0x540 = none ∧ decodeTableWord 8 0x17 = some (.encIdx 7) ∧
    decodeTableWord 8 0x20 = some (.encLit 0)

/-- A step takes the next presented input and is exec of the instruction it decodes to; with none presented nothing changes. R9, R10 (log 1, log 2). -/
def Obligations.StepRunsTheDecodedInstruction : Prop :=
  ∀ s : State, (s.pending = [] → step s = .next s) ∧
    ∀ inp rest, s.pending = inp :: rest →
      (∀ i, decode s.slotB.enc? s.slotA.enc? inp = .ok i → step s = exec i { s with pending := rest }) ∧
        ∀ e, decode s.slotB.enc? s.slotA.enc? inp = .error e → step s = .refused (refusalOf e)

/-- GET and SET presented on a loaded slot run in the mode that slot's descriptor selects. R130, R150, R61 (log 19). -/
def Obligations.StepOfGetAndSetTakesTheModeFromTheSlot : Prop :=
  ∀ (sl : SlotId) (v : Int) (rest : List Input) (s : State), (s.slot sl).loaded = true →
    (s.pending = getTransaction sl :: rest →
        step s = exec (getInstr sl (classify (s.slot sl).enc)) { s with pending := rest }) ∧
      (s.pending = setTransaction sl v :: rest →
        step s = exec (setInstr sl v (classify (s.slot sl).enc)) { s with pending := rest })

/-- A table word presented with withFetchWord is the instruction the very next step runs. R61 (log 1, log 15). -/
def Obligations.PresentedTableWordRunsNext : Prop :=
  ∀ (s : State) (nbits w : Nat) (i : Instr), decodeTableWord nbits w = some i →
    step (s.withFetchWord nbits w) = exec i { s.withFetchWord nbits w with pending := s.pending }

/-- Every step keeps memory canonical and inside mem[0..MEMSIZE-1], and has_extra in agreement with enc in loaded slots. R30, R31, R42. -/
def Obligations.StepKeepsTheInvariant : Prop :=
  ∀ s t : State, s.inv = true → step s = .next t → t.inv = true

/-- The invariant holds at State.reset and after reset with any parameters whose MEM_INIT is a memory of the machine. R35, R8 (the values of State.reset: log 6 to log 10). -/
def Obligations.ResetSatisfiesTheInvariant : Prop :=
  State.reset.inv = true ∧ ∀ p : Params, paramsOk p = true → (State.resetWith p).inv = true

/-- pc: +1 by NEXTWORD and LOAD with an extra word, norm16(wdata) by SETPC and SET.PCD, 0 by RESET; else unchanged. R24: "`pc` changes in exactly these ways"; the 0 of RESET is decision D3 (log 9). -/
def Obligations.PcChangesInExactlyTheseWays : Prop :=
  ∀ (i : Instr) (s t : State), exec i s = .next t →
    t.pc = match i with
      | .nextword | .loadIdx _ _ | .loadPick _ | .loadAbs _ | .loadImm _ => BitVec.ofNat 16 (s.pc.toNat + 1)
      | .setpc v | .setPcd _ v => norm16 v
      | .reset => 0
      | _ => s.pc

/-- sp: -1 by PUSHSLOT and SET.STK, +1 by POPSLOT and GET.STK, norm16(wdata) by SETSP and SET.SPD, SP_INIT by RESET; else unchanged. R26 (log 13). -/
def Obligations.SpChangesInExactlyTheseWays : Prop :=
  ∀ (i : Instr) (s t : State), exec i s = .next t →
    t.sp = match i with
      | .pushslot | .setStk _ _ => BitVec.ofNat 16 (s.sp.toNat + 65535)
      | .popslot | .getStk _ => BitVec.ofNat 16 (s.sp.toNat + 1)
      | .setsp v | .setSpd _ v => norm16 v
      | .reset => s.params.spInit
      | _ => s.sp

/-- Each command adds to cyc exactly what the table of R221 gives, at most 1, and RESET sets it to 0. R221, R43, R46; the 0 of RESET is decision D3 (log 9). -/
def Obligations.CycGrowsByTheCostTable : Prop :=
  ∀ (i : Instr) (s t : State), exec i s = .next t →
    t.cyc = (if i = .reset then 0 else s.cyc + cycCost i) ∧ cycCost i ≤ 1

/-- A general register changes only by WRREG, SET in mode REG, and RESET. R21. -/
def Obligations.OnlyRegisterWritesChangeRegisters : Prop :=
  ∀ (i : Instr) (s t : State), exec i s = .next t → i ≠ .reset →
    (∀ r v, i ≠ .wrreg r v) → (∀ sl r v, i ≠ .setReg sl r v) → ∀ j, t.reg j = s.reg j

/-- A slot, with its latched extra word, changes only by a LOAD of that slot and by RESET; stores never touch it. R31, R33, R34, R110, R130, R150. -/
def Obligations.SlotsChangeOnlyByTheirOwnLoad : Prop :=
  ∀ (i : Instr) (sl : SlotId) (s t : State), exec i s = .next t → i ≠ .reset →
    (∀ m, i ≠ loadInstr sl m) → t.slot sl = s.slot sl

/-- ex is written only by SETEX, SET.EXD and RESET, and read only by GETEX and GET.EXD. R27. -/
def Obligations.ExIsPlainStorage : Prop :=
  ∀ (i : Instr) (w : Word) (s : State),
    (i ≠ .reset → i ≠ .getex → (∀ v, i ≠ .setex v) → (∀ sl, i ≠ .getExd sl) → (∀ sl v, i ≠ .setExd sl v) →
      exec i { s with ex := w } = Claims.mapNext (fun t => { t with ex := w }) (exec i s)) ∧
      (i = .reset ∨ (∃ v, i = .setex v) ∨ (∃ sl v, i = .setExd sl v) → exec i { s with ex := w } = exec i s)

/-- ia is written only by SETIA and RESET and read only by GETIA; no command copies it into pc. R28, R191. -/
def Obligations.IaIsPlainStorage : Prop :=
  ∀ (i : Instr) (w : Word) (s : State),
    (i ≠ .reset → i ≠ .getia → (∀ v, i ≠ .setia v) →
      exec i { s with ia := w } = Claims.mapNext (fun t => { t with ia := w }) (exec i s)) ∧
      (i = .reset ∨ (∃ v, i = .setia v) → exec i { s with ia := w } = exec i s)

/-- Only the listed commands read memory; only WRMEM, SET in six modes and RESET (R30) write it. R41; that RESET writes memory is R30 and R210 (decision D18, log 21: DEDUCED); the first clause exempts stores, which the second takes up for all but memory itself. -/
def Obligations.OnlyMemoryCommandsTouchMemory : Prop :=
  ∀ (i : Instr) (m : Memory) (s : State),
    (Claims.readsMem i = false → Claims.storeCell i s = none → i ≠ .reset →
        exec i { s with mem := m } = Claims.mapNext (fun t => { t with mem := m }) (exec i s)) ∧
      (Claims.readsMem i = false →
        Claims.mapNext (fun t => { t with mem := [] }) (exec i { s with mem := m }) =
          Claims.mapNext (fun t => { t with mem := [] }) (exec i s)) ∧
      (Claims.storeCell i s = none → i ≠ .reset → ∀ t, exec i s = .next t → t.mem = s.mem) ∧
      exec .reset { s with mem := m } = exec .reset s

/-- No instruction changes the parameters of the machine or the commands still to be presented. R7, R8, R210 (log 1, log 7; SP_INIT too: log 24, DESIGN CHOICE). -/
def Obligations.ParametersAndCommandStreamStay : Prop :=
  ∀ (i : Instr) (s t : State), exec i s = .next t → t.params = s.params ∧ t.pending = s.pending

/-- NEXTWORD, LOAD b, LOAD a leave pc at P + 1 + needs_extra(b) + needs_extra(a), cyc grown by as much, memory and sp as before. R171, R174, R79. -/
def Obligations.ProtocolAdvancesPcByTheInstructionLength : Prop :=
  ∀ (eb ea : Desc) (rest : List Input) (s : State),
    s.pending = Claims.nextwordCmd :: Claims.loadCmd .b eb :: Claims.loadCmd .a ea :: rest →
    let n := 1 + Claims.extraWords eb + Claims.extraWords ea
    ∃ t u, Host.Core.run core 3 s = .next t ∧
      t.pc = BitVec.ofNat 16 (s.pc.toNat + n) ∧ t.cyc = s.cyc + n ∧
      t.slotB.enc? = some eb ∧ t.slotA.enc? = some ea ∧ t.mem = s.mem ∧ t.sp = s.sp ∧ t.x = s.x ∧ t.ex = s.ex ∧
      t.ia = s.ia ∧ t.pending = rest ∧
      exec .getpc t = .next u ∧ u.response = .word t.pc

/-- With both operands taking an extra word, P+1 goes to the first loaded and P+2 to the second; one alone gets P+1. R173. -/
def Obligations.ExtraWordsGoToTheOperandsInLoadOrder : Prop :=
  ∀ (f g : SlotId) (ef eg : Desc) (rest : List Input) (s : State), f ≠ g →
    s.pending = Claims.nextwordCmd :: Claims.loadCmd f ef :: Claims.loadCmd g eg :: rest →
    let word := fun n => s.mem.read ((s.pc + BitVec.ofNat 16 n).toNat % s.memSize)
    ∃ t, Host.Core.run core 3 s = .next t ∧
      (needsExtra ef = true → (t.slot f).hasExtra = true ∧ (t.slot f).extra = word 1) ∧
      (needsExtra ef = true → needsExtra eg = true → (t.slot g).hasExtra = true ∧ (t.slot g).extra = word 2) ∧
      (needsExtra ef = false → needsExtra eg = true → (t.slot g).hasExtra = true ∧ (t.slot g).extra = word 1)

/-- After LOAD.IMM, whatever is written to memory, GET.IMM returns the word latched at load time. R34, R216. -/
def Obligations.LatchedWordIsACopy : Prop :=
  ∀ (sl : SlotId) (addr : Word) (v : Int) (s : State),
    ∃ t u w, exec (.loadImm sl) s = .next t ∧ exec (.wrmem addr v) t = .next u ∧ exec (.getImm sl) u = .next w ∧
      w.response = .word (s.mem.read (s.pc.toNat % s.memSize))

/-- The register, base register, sp, pc and ex of an operand are those at the time of GET or SET, not of LOAD; each forms its address again. R172 (marked derived there); the push at 0 is decision D7 (log 13). -/
def Obligations.OperandStateIsSampledWhenGetRuns : Prop :=
  ∀ (sl : SlotId) (r : RegIdx) (v x : Int) (s : State),
    let a := (norm16 v).toNat
    let w := (s.mem.read (s.pc.toNat % s.memSize)).toNat
    (Claims.EndsReturning [.loadReg sl r, .wrreg r v, .getReg sl r] s (norm16 v) ∧
      Claims.EndsReturning [.loadInd sl r, .wrreg r v, .getInd sl r] s (s.mem.read (a % s.memSize)) ∧
      Claims.EndsReturning [.loadIdx sl r, .wrreg r v, .getIdx sl r] s (s.mem.read ((a + w) % s.memSize)) ∧
      Claims.EndsReturning [.loadStk sl, .setsp v, .getStk sl] s (s.mem.read (a % s.memSize)) ∧
      Claims.EndsReturning [.loadPeek sl, .setsp v, .getPeek sl] s (s.mem.read (a % s.memSize)) ∧
      Claims.EndsReturning [.loadPick sl, .setsp v, .getPick sl] s (s.mem.read ((a + w) % s.memSize)) ∧
      Claims.EndsReturning [.loadSpd sl, .setsp v, .getSpd sl] s (norm16 v) ∧
      Claims.EndsReturning [.loadPcd sl, .setpc v, .getPcd sl] s (norm16 v) ∧
      Claims.EndsReturning [.loadExd sl, .setex v, .getExd sl] s (norm16 v)) ∧
      (s.mem.wf = true →
        Claims.EndsStoring [.loadInd sl r, .getInd sl r, .wrreg r v, .setInd sl r x] s a x ∧
        Claims.EndsStoring [.loadIdx sl r, .getIdx sl r, .wrreg r v, .setIdx sl r x] s (a + w) x ∧
        Claims.EndsStoring [.loadStk sl, .getStk sl, .setsp v, .setStk sl x] s ((a + 65535) % 65536) x ∧
        Claims.EndsStoring [.loadPeek sl, .getPeek sl, .setsp v, .setPeek sl x] s a x ∧
        Claims.EndsStoring [.loadPick sl, .getPick sl, .setsp v, .setPick sl x] s (a + w) x)

/-- Along any run in which no RESET is presented, cyc never decreases. R29 (log 12). -/
def Obligations.CycNeverDecreasesWithoutReset : Prop :=
  ∀ (k : Nat) (s t : State), (∀ tr, .command tr ∈ s.pending → tr.cmd ≠ 0) →
    Host.Core.run core k s = .next t → s.cyc ≤ t.cyc

/-- While the commands still to come keep the resolver contract, a step completes and the rest keep it. R170, R200, R201, R219 (log 16, log 17; with nothing pending the idle step, log 2). -/
def Obligations.StepKeepsTheResolverContract : Prop :=
  ∀ s : State, keepsContract s.slotB.loaded s.slotA.loaded s.pending = true →
    ∃ t, step s = .next t ∧ keepsContract t.slotB.loaded t.slotA.loaded t.pending = true
end

