-- ==== Sys2Proof/Laws/Decode.lean ====
section
/-! SUPPORT. The small laws of the decoder: a descriptor and its mode determine each other, a slot and its bit,
and the two fields of a selector. -/

namespace Sys2Proof

/-- The descriptor of a mode classifies as that mode (R62). -/
@[simp] theorem classify_desc (m : Mode) : classify m.desc = m := by
  cases m with
  | reg r => revert r; decide
  | ind r => revert r; decide
  | idx r => revert r; decide
  | lit n => revert n; decide
  | stk | peek | pick | spd | pcd | exd | abs | imm => rfl

/-- The mode of a descriptor has that descriptor (R62). -/
@[simp] theorem desc_classify (e : Desc) : (classify e).desc = e := by
  revert e; decide

@[simp] theorem slotOfBit_bit (sl : SlotId) : slotOfBit sl.bit = sl := by cases sl <;> rfl

@[simp] theorem bit_slotOfBit (v : BitVec 1) : (slotOfBit v).bit = v := by revert v; decide

/-- A bit of a selector (R61). -/
theorem selector_bit (c : BitVec 5) (e : Desc) (i : Nat) :
    (c ++ e : Selector).getLsbD i = if i < 6 then e.getLsbD i else c.getLsbD (i - 6) :=
  @BitVec.getLsbD_append 5 6 i c e

/-- The command field of a selector (R61). -/
@[simp] theorem selector_cmd (c : BitVec 5) (e : Desc) : (c ++ e : Selector).extractLsb' 6 5 = c := by
  apply BitVec.eq_of_getLsbD_eq
  intro i hi
  rw [BitVec.getLsbD_extractLsb', selector_bit]
  simp [hi]

/-- The descriptor field of a selector (R61). -/
@[simp] theorem selector_enc (c : BitVec 5) (e : Desc) : (c ++ e : Selector).extractLsb' 0 6 = e := by
  apply BitVec.eq_of_getLsbD_eq
  intro i hi
  rw [BitVec.getLsbD_extractLsb', selector_bit]
  simp [hi]

/-- What a presented GET decodes to: the mode of the descriptor of the slot it addresses (R130, R61). -/
theorem decode_getTransaction (encB encA : Option Desc) (sl : SlotId) :
    decode encB encA (getTransaction sl) =
      match pickSlotEnc encB encA sl with
      | some e => .ok (getInstr sl (classify e))
      | none => .error (.unloadedSlot sl) := by
  simp only [decode, getTransaction, Transaction.selector, Transaction.encFromSlot, slotOfBit_bit]
  cases pickSlotEnc encB encA sl with
  | none => rfl
  | some e =>
    show decodeSelector ((0x13 : BitVec 5) ++ e) _ = _
    simp only [decodeSelector, selector_cmd, selector_enc, slotOfBit_bit]
    rfl

/-- What a presented SET decodes to: the mode of the descriptor of the slot it addresses (R150, R61). -/
theorem decode_setTransaction (encB encA : Option Desc) (sl : SlotId) (v : Int) :
    decode encB encA (setTransaction sl v) =
      match pickSlotEnc encB encA sl with
      | some e => .ok (setInstr sl v (classify e))
      | none => .error (.unloadedSlot sl) := by
  simp only [decode, setTransaction, Transaction.selector, Transaction.encFromSlot, slotOfBit_bit]
  cases pickSlotEnc encB encA sl with
  | none => rfl
  | some e =>
    show decodeSelector ((0x14 : BitVec 5) ++ e) _ = _
    simp only [decodeSelector, selector_cmd, selector_enc, slotOfBit_bit]
    rfl

/-- A command that does not read a slot's descriptor decodes from its own ports (R61). -/
theorem decode_of_not_encFromSlot {t : Transaction} (h : t.encFromSlot = false) (encB encA : Option Desc) :
    decode encB encA (.command t) = decodeSelector (t.cmd ++ t.enc) t := by
  simp [decode, Transaction.selector, h]

end Sys2Proof
end

