-- ==== Sys2Proof/Laws/Exec.lean ====
section
/-! SUPPORT. What each instruction is over the shared operations: one equation per constructor, so that no later
proof unfolds the dispatch and a meaning again. -/

namespace Sys2Proof.Machine

theorem exec_reset (s : State) :
    exec .reset s = answerNone s.resetCore := rfl
theorem exec_rdmem (addr : Word) (s : State) :
    exec (.rdmem addr) s = answerWord (s.memRead addr.toNat) := rfl
theorem exec_wrmem (addr : Word) (wdata : Int) (s : State) :
    exec (.wrmem addr wdata) s = answerNone (s.memWrite addr.toNat wdata) := rfl
theorem exec_rdreg (idx : RegIdx) (s : State) :
    exec (.rdreg idx) s = answerWord (s.reg idx, s) := rfl
theorem exec_wrreg (idx : RegIdx) (wdata : Int) (s : State) :
    exec (.wrreg idx wdata) s = answerNone (s.setReg idx wdata) := rfl
theorem exec_nextword (s : State) :
    exec .nextword s = answerWord s.nextWord := rfl
theorem exec_pushslot (s : State) :
    exec .pushslot s = answerWord s.pushSlot := rfl
theorem exec_popslot (s : State) :
    exec .popslot s = answerWord s.popSlot := rfl
theorem exec_peekaddr (s : State) :
    exec .peekaddr s = answerWord (s.peekAddress, s) := rfl
theorem exec_getpc (s : State) :
    exec .getpc s = answerWord (s.pc, s) := rfl
theorem exec_setpc (wdata : Int) (s : State) :
    exec (.setpc wdata) s = answerNone { s with pc := norm16 wdata } := rfl
theorem exec_getsp (s : State) :
    exec .getsp s = answerWord (s.sp, s) := rfl
theorem exec_setsp (wdata : Int) (s : State) :
    exec (.setsp wdata) s = answerNone { s with sp := norm16 wdata } := rfl
theorem exec_getex (s : State) :
    exec .getex s = answerWord (s.ex, s) := rfl
theorem exec_setex (wdata : Int) (s : State) :
    exec (.setex wdata) s = answerNone { s with ex := norm16 wdata } := rfl
theorem exec_getia (s : State) :
    exec .getia s = answerWord (s.ia, s) := rfl
theorem exec_setia (wdata : Int) (s : State) :
    exec (.setia wdata) s = answerNone { s with ia := norm16 wdata } := rfl
theorem exec_getcyc (s : State) :
    exec .getcyc s = .next (s.respond (.count s.cyc)) := rfl
theorem exec_loadReg (sl : SlotId) (r : RegIdx) (s : State) :
    exec (.loadReg sl r) s = answerNone (s.latchPlain sl (Mode.reg r).desc) := rfl
theorem exec_loadInd (sl : SlotId) (r : RegIdx) (s : State) :
    exec (.loadInd sl r) s = answerNone (s.latchPlain sl (Mode.ind r).desc) := rfl
theorem exec_loadIdx (sl : SlotId) (r : RegIdx) (s : State) :
    exec (.loadIdx sl r) s = answerNone (s.latchExtra sl (Mode.idx r).desc) := rfl
theorem exec_loadStk (sl : SlotId) (s : State) :
    exec (.loadStk sl) s = answerNone (s.latchPlain sl Mode.stk.desc) := rfl
theorem exec_loadPeek (sl : SlotId) (s : State) :
    exec (.loadPeek sl) s = answerNone (s.latchPlain sl Mode.peek.desc) := rfl
theorem exec_loadPick (sl : SlotId) (s : State) :
    exec (.loadPick sl) s = answerNone (s.latchExtra sl Mode.pick.desc) := rfl
theorem exec_loadSpd (sl : SlotId) (s : State) :
    exec (.loadSpd sl) s = answerNone (s.latchPlain sl Mode.spd.desc) := rfl
theorem exec_loadPcd (sl : SlotId) (s : State) :
    exec (.loadPcd sl) s = answerNone (s.latchPlain sl Mode.pcd.desc) := rfl
theorem exec_loadExd (sl : SlotId) (s : State) :
    exec (.loadExd sl) s = answerNone (s.latchPlain sl Mode.exd.desc) := rfl
theorem exec_loadAbs (sl : SlotId) (s : State) :
    exec (.loadAbs sl) s = answerNone (s.latchExtra sl Mode.abs.desc) := rfl
theorem exec_loadImm (sl : SlotId) (s : State) :
    exec (.loadImm sl) s = answerNone (s.latchExtra sl Mode.imm.desc) := rfl
theorem exec_loadLit (sl : SlotId) (n : BitVec 5) (s : State) :
    exec (.loadLit sl n) s = answerNone (s.latchPlain sl (Mode.lit n).desc) := rfl
theorem exec_getReg (sl : SlotId) (r : RegIdx) (s : State) :
    exec (.getReg sl r) s = s.withLoaded sl fun _ => answerWord (s.reg r, s) := rfl
theorem exec_getInd (sl : SlotId) (r : RegIdx) (s : State) :
    exec (.getInd sl r) s = s.withLoaded sl fun _ => answerWord (s.memRead (s.indAddr r)) := rfl
theorem exec_getIdx (sl : SlotId) (r : RegIdx) (s : State) :
    exec (.getIdx sl r) s = s.withLoaded sl fun v => answerWord (s.memRead (s.idxAddr r v.extra)) := rfl
theorem exec_getStk (sl : SlotId) (s : State) :
    exec (.getStk sl) s = s.withLoaded sl fun _ => answerWord s.popWord := rfl
theorem exec_getPeek (sl : SlotId) (s : State) :
    exec (.getPeek sl) s = s.withLoaded sl fun _ => answerWord (s.memRead s.peekAddr) := rfl
theorem exec_getPick (sl : SlotId) (s : State) :
    exec (.getPick sl) s = s.withLoaded sl fun v => answerWord (s.memRead (s.pickAddr v.extra)) := rfl
theorem exec_getSpd (sl : SlotId) (s : State) :
    exec (.getSpd sl) s = s.withLoaded sl fun _ => answerWord (s.sp, s) := rfl
theorem exec_getPcd (sl : SlotId) (s : State) :
    exec (.getPcd sl) s = s.withLoaded sl fun _ => answerWord (s.pc, s) := rfl
theorem exec_getExd (sl : SlotId) (s : State) :
    exec (.getExd sl) s = s.withLoaded sl fun _ => answerWord (s.ex, s) := rfl
theorem exec_getAbs (sl : SlotId) (s : State) :
    exec (.getAbs sl) s = s.withLoaded sl fun v => answerWord (s.memRead (absAddr v.extra)) := rfl
theorem exec_getImm (sl : SlotId) (s : State) :
    exec (.getImm sl) s = s.withLoaded sl fun v => answerWord (v.extra, s) := rfl
theorem exec_getLit (sl : SlotId) (n : BitVec 5) (s : State) :
    exec (.getLit sl n) s = s.withLoaded sl fun _ => answerWord (litValue n, s) := rfl
theorem exec_setReg (sl : SlotId) (r : RegIdx) (wdata : Int) (s : State) :
    exec (.setReg sl r wdata) s = s.withLoaded sl fun _ => answerNone (s.setReg r wdata) := rfl
theorem exec_setInd (sl : SlotId) (r : RegIdx) (wdata : Int) (s : State) :
    exec (.setInd sl r wdata) s = s.withLoaded sl fun _ => answerNone (s.memWrite (s.indAddr r) wdata) := rfl
theorem exec_setIdx (sl : SlotId) (r : RegIdx) (wdata : Int) (s : State) :
    exec (.setIdx sl r wdata) s = s.withLoaded sl fun v => answerNone (s.memWrite (s.idxAddr r v.extra) wdata) := rfl
theorem exec_setStk (sl : SlotId) (wdata : Int) (s : State) :
    exec (.setStk sl wdata) s = s.withLoaded sl fun _ => answerNone (s.pushWord wdata) := rfl
theorem exec_setPeek (sl : SlotId) (wdata : Int) (s : State) :
    exec (.setPeek sl wdata) s = s.withLoaded sl fun _ => answerNone (s.memWrite s.peekAddr wdata) := rfl
theorem exec_setPick (sl : SlotId) (wdata : Int) (s : State) :
    exec (.setPick sl wdata) s = s.withLoaded sl fun v => answerNone (s.memWrite (s.pickAddr v.extra) wdata) := rfl
theorem exec_setSpd (sl : SlotId) (wdata : Int) (s : State) :
    exec (.setSpd sl wdata) s = s.withLoaded sl fun _ => answerNone { s with sp := norm16 wdata } := rfl
theorem exec_setPcd (sl : SlotId) (wdata : Int) (s : State) :
    exec (.setPcd sl wdata) s = s.withLoaded sl fun _ => answerNone { s with pc := norm16 wdata } := rfl
theorem exec_setExd (sl : SlotId) (wdata : Int) (s : State) :
    exec (.setExd sl wdata) s = s.withLoaded sl fun _ => answerNone { s with ex := norm16 wdata } := rfl
theorem exec_setAbs (sl : SlotId) (wdata : Int) (s : State) :
    exec (.setAbs sl wdata) s = s.withLoaded sl fun v => answerNone (s.memWrite (absAddr v.extra) wdata) := rfl
theorem exec_setImm (sl : SlotId) (wdata : Int) (s : State) :
    exec (.setImm sl wdata) s = s.withLoaded sl fun _ => answerNone s := rfl
theorem exec_setLit (sl : SlotId) (n : BitVec 5) (wdata : Int) (s : State) :
    exec (.setLit sl n wdata) s = s.withLoaded sl fun _ => answerNone s := rfl
theorem exec_encReg (r : RegIdx) (s : State) :
    exec (.encReg r) s = s.classified (.reg r) := rfl
theorem exec_encInd (r : RegIdx) (s : State) :
    exec (.encInd r) s = s.classified (.ind r) := rfl
theorem exec_encIdx (r : RegIdx) (s : State) :
    exec (.encIdx r) s = s.classified (.idx r) := rfl
theorem exec_encStk (s : State) :
    exec .encStk s = s.classified .stk := rfl
theorem exec_encPeek (s : State) :
    exec .encPeek s = s.classified .peek := rfl
theorem exec_encPick (s : State) :
    exec .encPick s = s.classified .pick := rfl
theorem exec_encSpd (s : State) :
    exec .encSpd s = s.classified .spd := rfl
theorem exec_encPcd (s : State) :
    exec .encPcd s = s.classified .pcd := rfl
theorem exec_encExd (s : State) :
    exec .encExd s = s.classified .exd := rfl
theorem exec_encAbs (s : State) :
    exec .encAbs s = s.classified .abs := rfl
theorem exec_encImm (s : State) :
    exec .encImm s = s.classified .imm := rfl
theorem exec_encLit (n : BitVec 5) (s : State) :
    exec (.encLit n) s = s.classified (.lit n) := rfl

/-- LOAD in any mode that takes no extra word (R110). -/
theorem exec_loadInstr_plain {m : Mode} (h : m.takesExtra = false) (sl : SlotId) (s : State) :
    exec (loadInstr sl m) s = answerNone (s.latchPlain sl m.desc) := by
  cases m with
  | idx r => exact absurd h (by revert r; decide)
  | pick | abs | imm => cases h
  | reg | ind | stk | peek | spd | pcd | exd | lit => rfl

/-- LOAD in any mode that takes an extra word (R110). -/
theorem exec_loadInstr_extra {m : Mode} (h : m.takesExtra = true) (sl : SlotId) (s : State) :
    exec (loadInstr sl m) s = answerNone (s.latchExtra sl m.desc) := by
  cases m with
  | reg r => exact absurd h (by revert r; decide)
  | ind r => exact absurd h (by revert r; decide)
  | lit n => exact absurd h (by revert n; decide)
  | stk | peek | spd | pcd | exd => cases h
  | idx | pick | abs | imm => rfl

end Sys2Proof.Machine
end

