-- ==== Sys2Proof/Laws/Memory.lean ====
section
/-! SUPPORT. The laws of the memory array: read after write, every write keeps the canonical form, and memories
in canonical form that read alike are equal. -/

namespace Sys2Proof

theorem Memory.read_of_lt {lo k : Nat} : ∀ {m : Memory}, m.wfAbove lo = true → k < lo → m.read k = Memory.unlisted
  | [], _, _ => rfl
  | (j, w) :: m, h, hk => by
    simp only [Memory.wfAbove, Bool.and_eq_true, decide_eq_true_eq] at h
    have hj : j ≠ k := by omega
    simp only [Memory.read, hj, if_false]
    exact Memory.read_of_lt h.2 (by omega)

theorem Memory.wfAbove_mono {lo lo' : Nat} : ∀ {m : Memory}, m.wfAbove lo = true → lo' ≤ lo → m.wfAbove lo' = true
  | [], _, _ => rfl
  | (j, w) :: m, h, hl => by
    simp only [Memory.wfAbove, Bool.and_eq_true, decide_eq_true_eq] at h ⊢
    exact ⟨⟨by omega, h.1.2⟩, h.2⟩

/-- A write keeps the canonical form. -/
theorem Memory.wfAbove_write {k : Nat} {v : Word} :
    ∀ {lo : Nat} {m : Memory}, m.wfAbove lo = true → lo ≤ k → (m.write k v).wfAbove lo = true
  | lo, [], _, hk => by
    by_cases hv : v = Memory.unlisted <;> simp [Memory.write, Memory.wfAbove, hv, hk]
  | lo, (j, w) :: m, h, hk => by
    have h' := h
    simp only [Memory.wfAbove, Bool.and_eq_true, decide_eq_true_eq] at h
    simp only [Memory.write]
    split
    · split
      · exact h'
      · rename_i hkj hv
        simp only [Memory.wfAbove, Bool.and_eq_true, decide_eq_true_eq]
        exact ⟨⟨hk, hv⟩, ⟨by omega, h.1.2⟩, h.2⟩
    · split
      · split
        · exact Memory.wfAbove_mono h.2 (by omega)
        · rename_i hkj hv
          subst hkj
          simp only [Memory.wfAbove, Bool.and_eq_true, decide_eq_true_eq]
          exact ⟨⟨hk, hv⟩, h.2⟩
      · simp only [Memory.wfAbove, Bool.and_eq_true, decide_eq_true_eq]
        exact ⟨h.1, Memory.wfAbove_write h.2 (by omega)⟩

/-- Every memory operation keeps the canonical form (`read` changes nothing). -/
theorem Memory.wf_write {m : Memory} (h : m.wf = true) (k : Nat) (v : Word) : (m.write k v).wf = true :=
  Memory.wfAbove_write h (Nat.zero_le k)

/-- A write to a cell of the array keeps the memory inside the array. -/
theorem Memory.inside_write {n k : Nat} {v : Word} (hk : k < n) :
    ∀ {m : Memory}, m.inside n = true → (m.write k v).inside n = true
  | [], _ => by by_cases hv : v = Memory.unlisted <;> simp [Memory.write, Memory.inside, hv, hk]
  | (j, w) :: m, h => by
    have h' : j < n ∧ Memory.inside n m = true := by simpa [Memory.inside] using h
    have keep : ∀ l : Memory, l.inside n = true → ∀ c : Nat × Word, c.1 < n → Memory.inside n (c :: l) = true := by
      intro l hl c hc
      simpa [Memory.inside, hc] using hl
    simp only [Memory.write]
    split
    · split
      · exact h
      · exact keep _ h _ hk
    · split
      · split
        · exact h'.2
        · exact keep _ h'.2 _ hk
      · exact keep _ (Memory.inside_write hk h'.2) _ h'.1

theorem Memory.read_write_above {k i : Nat} {v : Word} :
    ∀ {lo : Nat} {m : Memory}, m.wfAbove lo = true →
      (m.write k v).read i = if i = k then v else m.read i
  | lo, [], _ => by
    rcases eq_or_ne i k with rfl | hi
    · by_cases hv : v = Memory.unlisted <;> simp [Memory.write, Memory.read, hv]
    · by_cases hv : v = Memory.unlisted <;> simp [Memory.write, Memory.read, hv, hi, hi.symm]
  | lo, (j, w) :: m, h => by
    simp only [Memory.wfAbove, Bool.and_eq_true, decide_eq_true_eq] at h
    have tail : ∀ c, c < j + 1 → Memory.read m c = Memory.unlisted := fun c hc => Memory.read_of_lt h.2 hc
    simp only [Memory.write]
    split
    · rename_i hkj
      split
      · rename_i hv
        by_cases hi : i = k
        · simp [Memory.read, hi, hv, tail k (by omega), show j ≠ k by omega]
        · simp [hi]
      · by_cases hi : i = k
        · simp [Memory.read, hi]
        · simp [Memory.read, hi, Ne.symm hi]
    · split
      · rename_i hkj
        subst hkj
        split
        · rename_i hv
          by_cases hi : i = k
          · simp [hi, hv, tail k (by omega)]
          · simp [Memory.read, hi, Ne.symm hi]
        · by_cases hi : i = k
          · simp [Memory.read, hi]
          · simp [Memory.read, hi, Ne.symm hi]
      · rename_i hlt hne
        simp only [Memory.read, Memory.read_write_above h.2]
        by_cases hi : i = k
        · have : j ≠ k := fun e => hne e.symm
          simp [hi, this]
        · simp [hi]

/-- Reading a canonical memory after a write: the value written there, and every other cell as before. -/
theorem Memory.read_write {m : Memory} (h : m.wf = true) (k : Nat) (v : Word) (i : Nat) :
    (m.write k v).read i = if i = k then v else m.read i :=
  Memory.read_write_above h

/-- Canonical memories that read alike are the same data. -/
theorem Memory.ext_above : ∀ {lo : Nat} {m m' : Memory}, m.wfAbove lo = true → m'.wfAbove lo = true →
    (∀ k, m.read k = m'.read k) → m = m'
  | _, [], [], _, _, _ => rfl
  | _, [], (j, w) :: m', _, h', e => by
    simp only [Memory.wfAbove, Bool.and_eq_true, decide_eq_true_eq] at h'
    have := e j
    simp only [Memory.read, if_true] at this
    exact absurd this.symm h'.1.2
  | _, (j, w) :: m, [], h, _, e => by
    simp only [Memory.wfAbove, Bool.and_eq_true, decide_eq_true_eq] at h
    have := e j
    simp only [Memory.read, if_true] at this
    exact absurd this h.1.2
  | _, (j, w) :: m, (j', w') :: m', h, h', e => by
    simp only [Memory.wfAbove, Bool.and_eq_true, decide_eq_true_eq] at h h'
    have hj : j = j' := by
      rcases Nat.lt_trichotomy j j' with hlt | heq | hlt
      · have := e j
        simp only [Memory.read, if_true, show j' ≠ j by omega, if_false,
          Memory.read_of_lt h'.2 (show j < j' + 1 by omega)] at this
        exact absurd this h.1.2
      · exact heq
      · have := e j'
        simp only [Memory.read, if_true, show j ≠ j' by omega, if_false,
          Memory.read_of_lt h.2 (show j' < j + 1 by omega)] at this
        exact absurd this.symm h'.1.2
    subst hj
    have hw : w = w' := by simpa [Memory.read] using e j
    subst hw
    refine congrArg _ (Memory.ext_above h.2 h'.2 fun k => ?_)
    by_cases hk : k = j
    · rw [Memory.read_of_lt h.2 (by omega), Memory.read_of_lt h'.2 (by omega)]
    · simpa [Memory.read, Ne.symm hk] using e k

/-- Canonical memories that read alike are equal. -/
theorem Memory.ext {m m' : Memory} (h : m.wf = true) (h' : m'.wf = true) (e : ∀ k, m.read k = m'.read k) : m = m' :=
  Memory.ext_above h h' e

end Sys2Proof
end

