-- ==== Sys2Proof/Laws/State.lean ====
section
/-! SUPPORT. One lemma per field per update of the state, each true by unfolding the update, so that no later
proof unfolds a record update; and the accessors over the updates. -/

namespace Sys2Proof.Machine

/-! ### `respond` -/

@[simp] theorem respond_x (s : State) (r : Response) : (s.respond r).x = s.x := rfl
@[simp] theorem respond_pc (s : State) (r : Response) : (s.respond r).pc = s.pc := rfl
@[simp] theorem respond_sp (s : State) (r : Response) : (s.respond r).sp = s.sp := rfl
@[simp] theorem respond_ex (s : State) (r : Response) : (s.respond r).ex = s.ex := rfl
@[simp] theorem respond_ia (s : State) (r : Response) : (s.respond r).ia = s.ia := rfl
@[simp] theorem respond_cyc (s : State) (r : Response) : (s.respond r).cyc = s.cyc := rfl
@[simp] theorem respond_mem (s : State) (r : Response) : (s.respond r).mem = s.mem := rfl
@[simp] theorem respond_slotB (s : State) (r : Response) : (s.respond r).slotB = s.slotB := rfl
@[simp] theorem respond_slotA (s : State) (r : Response) : (s.respond r).slotA = s.slotA := rfl
@[simp] theorem respond_params (s : State) (r : Response) : (s.respond r).params = s.params := rfl
@[simp] theorem respond_pending (s : State) (r : Response) : (s.respond r).pending = s.pending := rfl
@[simp] theorem respond_response (s : State) (r : Response) : (s.respond r).response = r := rfl
@[simp] theorem respond_freeCount (s : State) (r : Response) : (s.respond r).freeCount = s.freeCount := rfl

/-! ### `setReg` -/

@[simp] theorem setReg_x (s : State) (r : RegIdx) (v : Int) : (s.setReg r v).x = s.x.set r.toNat (norm16 v) := rfl
@[simp] theorem setReg_pc (s : State) (r : RegIdx) (v : Int) : (s.setReg r v).pc = s.pc := rfl
@[simp] theorem setReg_sp (s : State) (r : RegIdx) (v : Int) : (s.setReg r v).sp = s.sp := rfl
@[simp] theorem setReg_ex (s : State) (r : RegIdx) (v : Int) : (s.setReg r v).ex = s.ex := rfl
@[simp] theorem setReg_ia (s : State) (r : RegIdx) (v : Int) : (s.setReg r v).ia = s.ia := rfl
@[simp] theorem setReg_cyc (s : State) (r : RegIdx) (v : Int) : (s.setReg r v).cyc = s.cyc := rfl
@[simp] theorem setReg_mem (s : State) (r : RegIdx) (v : Int) : (s.setReg r v).mem = s.mem := rfl
@[simp] theorem setReg_slotB (s : State) (r : RegIdx) (v : Int) : (s.setReg r v).slotB = s.slotB := rfl
@[simp] theorem setReg_slotA (s : State) (r : RegIdx) (v : Int) : (s.setReg r v).slotA = s.slotA := rfl
@[simp] theorem setReg_params (s : State) (r : RegIdx) (v : Int) : (s.setReg r v).params = s.params := rfl
@[simp] theorem setReg_pending (s : State) (r : RegIdx) (v : Int) : (s.setReg r v).pending = s.pending := rfl
@[simp] theorem setReg_response (s : State) (r : RegIdx) (v : Int) : (s.setReg r v).response = s.response := rfl
@[simp] theorem setReg_freeCount (s : State) (r : RegIdx) (v : Int) : (s.setReg r v).freeCount = s.freeCount := rfl

/-! ### `memRead` -/

@[simp] theorem memRead_x (s : State) (k : Nat) : (s.memRead k).2.x = s.x := rfl
@[simp] theorem memRead_pc (s : State) (k : Nat) : (s.memRead k).2.pc = s.pc := rfl
@[simp] theorem memRead_sp (s : State) (k : Nat) : (s.memRead k).2.sp = s.sp := rfl
@[simp] theorem memRead_ex (s : State) (k : Nat) : (s.memRead k).2.ex = s.ex := rfl
@[simp] theorem memRead_ia (s : State) (k : Nat) : (s.memRead k).2.ia = s.ia := rfl
@[simp] theorem memRead_cyc (s : State) (k : Nat) : (s.memRead k).2.cyc = s.cyc + 1 := rfl
@[simp] theorem memRead_mem (s : State) (k : Nat) : (s.memRead k).2.mem = s.mem := rfl
@[simp] theorem memRead_slotB (s : State) (k : Nat) : (s.memRead k).2.slotB = s.slotB := rfl
@[simp] theorem memRead_slotA (s : State) (k : Nat) : (s.memRead k).2.slotA = s.slotA := rfl
@[simp] theorem memRead_params (s : State) (k : Nat) : (s.memRead k).2.params = s.params := rfl
@[simp] theorem memRead_pending (s : State) (k : Nat) : (s.memRead k).2.pending = s.pending := rfl
@[simp] theorem memRead_response (s : State) (k : Nat) : (s.memRead k).2.response = s.response := rfl
@[simp] theorem memRead_freeCount (s : State) (k : Nat) : (s.memRead k).2.freeCount = s.freeCount := rfl

/-! ### `memWrite` -/

@[simp] theorem memWrite_x (s : State) (k : Nat) (v : Int) : (s.memWrite k v).x = s.x := rfl
@[simp] theorem memWrite_pc (s : State) (k : Nat) (v : Int) : (s.memWrite k v).pc = s.pc := rfl
@[simp] theorem memWrite_sp (s : State) (k : Nat) (v : Int) : (s.memWrite k v).sp = s.sp := rfl
@[simp] theorem memWrite_ex (s : State) (k : Nat) (v : Int) : (s.memWrite k v).ex = s.ex := rfl
@[simp] theorem memWrite_ia (s : State) (k : Nat) (v : Int) : (s.memWrite k v).ia = s.ia := rfl
@[simp] theorem memWrite_cyc (s : State) (k : Nat) (v : Int) : (s.memWrite k v).cyc = s.cyc + 1 := rfl
@[simp] theorem memWrite_mem (s : State) (k : Nat) (v : Int) : (s.memWrite k v).mem = s.mem.write (s.cellOf k) (norm16 v) := rfl
@[simp] theorem memWrite_slotB (s : State) (k : Nat) (v : Int) : (s.memWrite k v).slotB = s.slotB := rfl
@[simp] theorem memWrite_slotA (s : State) (k : Nat) (v : Int) : (s.memWrite k v).slotA = s.slotA := rfl
@[simp] theorem memWrite_params (s : State) (k : Nat) (v : Int) : (s.memWrite k v).params = s.params := rfl
@[simp] theorem memWrite_pending (s : State) (k : Nat) (v : Int) : (s.memWrite k v).pending = s.pending := rfl
@[simp] theorem memWrite_response (s : State) (k : Nat) (v : Int) : (s.memWrite k v).response = s.response := rfl
@[simp] theorem memWrite_freeCount (s : State) (k : Nat) (v : Int) : (s.memWrite k v).freeCount = s.freeCount := rfl

/-! ### `nextWord` -/

@[simp] theorem nextWord_x (s : State) : s.nextWord.2.x = s.x := rfl
@[simp] theorem nextWord_pc (s : State) : s.nextWord.2.pc = incr s.pc := rfl
@[simp] theorem nextWord_sp (s : State) : s.nextWord.2.sp = s.sp := rfl
@[simp] theorem nextWord_ex (s : State) : s.nextWord.2.ex = s.ex := rfl
@[simp] theorem nextWord_ia (s : State) : s.nextWord.2.ia = s.ia := rfl
@[simp] theorem nextWord_cyc (s : State) : s.nextWord.2.cyc = s.cyc + 1 := rfl
@[simp] theorem nextWord_mem (s : State) : s.nextWord.2.mem = s.mem := rfl
@[simp] theorem nextWord_slotB (s : State) : s.nextWord.2.slotB = s.slotB := rfl
@[simp] theorem nextWord_slotA (s : State) : s.nextWord.2.slotA = s.slotA := rfl
@[simp] theorem nextWord_params (s : State) : s.nextWord.2.params = s.params := rfl
@[simp] theorem nextWord_pending (s : State) : s.nextWord.2.pending = s.pending := rfl
@[simp] theorem nextWord_response (s : State) : s.nextWord.2.response = s.response := rfl
@[simp] theorem nextWord_freeCount (s : State) : s.nextWord.2.freeCount = s.freeCount := rfl

/-! ### `pushSlot` -/

@[simp] theorem pushSlot_x (s : State) : s.pushSlot.2.x = s.x := rfl
@[simp] theorem pushSlot_pc (s : State) : s.pushSlot.2.pc = s.pc := rfl
@[simp] theorem pushSlot_sp (s : State) : s.pushSlot.2.sp = decr s.sp := rfl
@[simp] theorem pushSlot_ex (s : State) : s.pushSlot.2.ex = s.ex := rfl
@[simp] theorem pushSlot_ia (s : State) : s.pushSlot.2.ia = s.ia := rfl
@[simp] theorem pushSlot_cyc (s : State) : s.pushSlot.2.cyc = s.cyc := rfl
@[simp] theorem pushSlot_mem (s : State) : s.pushSlot.2.mem = s.mem := rfl
@[simp] theorem pushSlot_slotB (s : State) : s.pushSlot.2.slotB = s.slotB := rfl
@[simp] theorem pushSlot_slotA (s : State) : s.pushSlot.2.slotA = s.slotA := rfl
@[simp] theorem pushSlot_params (s : State) : s.pushSlot.2.params = s.params := rfl
@[simp] theorem pushSlot_pending (s : State) : s.pushSlot.2.pending = s.pending := rfl
@[simp] theorem pushSlot_response (s : State) : s.pushSlot.2.response = s.response := rfl
@[simp] theorem pushSlot_freeCount (s : State) : s.pushSlot.2.freeCount = s.freeCount := rfl

/-! ### `popSlot` -/

@[simp] theorem popSlot_x (s : State) : s.popSlot.2.x = s.x := rfl
@[simp] theorem popSlot_pc (s : State) : s.popSlot.2.pc = s.pc := rfl
@[simp] theorem popSlot_sp (s : State) : s.popSlot.2.sp = incr s.sp := rfl
@[simp] theorem popSlot_ex (s : State) : s.popSlot.2.ex = s.ex := rfl
@[simp] theorem popSlot_ia (s : State) : s.popSlot.2.ia = s.ia := rfl
@[simp] theorem popSlot_cyc (s : State) : s.popSlot.2.cyc = s.cyc := rfl
@[simp] theorem popSlot_mem (s : State) : s.popSlot.2.mem = s.mem := rfl
@[simp] theorem popSlot_slotB (s : State) : s.popSlot.2.slotB = s.slotB := rfl
@[simp] theorem popSlot_slotA (s : State) : s.popSlot.2.slotA = s.slotA := rfl
@[simp] theorem popSlot_params (s : State) : s.popSlot.2.params = s.params := rfl
@[simp] theorem popSlot_pending (s : State) : s.popSlot.2.pending = s.pending := rfl
@[simp] theorem popSlot_response (s : State) : s.popSlot.2.response = s.response := rfl
@[simp] theorem popSlot_freeCount (s : State) : s.popSlot.2.freeCount = s.freeCount := rfl

/-! ### `popWord` -/

@[simp] theorem popWord_x (s : State) : s.popWord.2.x = s.x := rfl
@[simp] theorem popWord_pc (s : State) : s.popWord.2.pc = s.pc := rfl
@[simp] theorem popWord_sp (s : State) : s.popWord.2.sp = incr s.sp := rfl
@[simp] theorem popWord_ex (s : State) : s.popWord.2.ex = s.ex := rfl
@[simp] theorem popWord_ia (s : State) : s.popWord.2.ia = s.ia := rfl
@[simp] theorem popWord_cyc (s : State) : s.popWord.2.cyc = s.cyc + 1 := rfl
@[simp] theorem popWord_mem (s : State) : s.popWord.2.mem = s.mem := rfl
@[simp] theorem popWord_slotB (s : State) : s.popWord.2.slotB = s.slotB := rfl
@[simp] theorem popWord_slotA (s : State) : s.popWord.2.slotA = s.slotA := rfl
@[simp] theorem popWord_params (s : State) : s.popWord.2.params = s.params := rfl
@[simp] theorem popWord_pending (s : State) : s.popWord.2.pending = s.pending := rfl
@[simp] theorem popWord_response (s : State) : s.popWord.2.response = s.response := rfl
@[simp] theorem popWord_freeCount (s : State) : s.popWord.2.freeCount = s.freeCount := rfl

/-! ### `pushWord` -/

@[simp] theorem pushWord_x (s : State) (v : Int) : (s.pushWord v).x = s.x := rfl
@[simp] theorem pushWord_pc (s : State) (v : Int) : (s.pushWord v).pc = s.pc := rfl
@[simp] theorem pushWord_sp (s : State) (v : Int) : (s.pushWord v).sp = decr s.sp := rfl
@[simp] theorem pushWord_ex (s : State) (v : Int) : (s.pushWord v).ex = s.ex := rfl
@[simp] theorem pushWord_ia (s : State) (v : Int) : (s.pushWord v).ia = s.ia := rfl
@[simp] theorem pushWord_cyc (s : State) (v : Int) : (s.pushWord v).cyc = s.cyc + 1 := rfl
@[simp] theorem pushWord_mem (s : State) (v : Int) : (s.pushWord v).mem = s.mem.write (s.cellOf (decr s.sp).toNat) (norm16 v) := rfl
@[simp] theorem pushWord_slotB (s : State) (v : Int) : (s.pushWord v).slotB = s.slotB := rfl
@[simp] theorem pushWord_slotA (s : State) (v : Int) : (s.pushWord v).slotA = s.slotA := rfl
@[simp] theorem pushWord_params (s : State) (v : Int) : (s.pushWord v).params = s.params := rfl
@[simp] theorem pushWord_pending (s : State) (v : Int) : (s.pushWord v).pending = s.pending := rfl
@[simp] theorem pushWord_response (s : State) (v : Int) : (s.pushWord v).response = s.response := rfl
@[simp] theorem pushWord_freeCount (s : State) (v : Int) : (s.pushWord v).freeCount = s.freeCount := rfl

/-! ### `setSlot` -/

@[simp] theorem setSlot_x (s : State) (sl : SlotId) (v : Slot) : (s.setSlot sl v).x = s.x := by cases sl <;> rfl
@[simp] theorem setSlot_pc (s : State) (sl : SlotId) (v : Slot) : (s.setSlot sl v).pc = s.pc := by cases sl <;> rfl
@[simp] theorem setSlot_sp (s : State) (sl : SlotId) (v : Slot) : (s.setSlot sl v).sp = s.sp := by cases sl <;> rfl
@[simp] theorem setSlot_ex (s : State) (sl : SlotId) (v : Slot) : (s.setSlot sl v).ex = s.ex := by cases sl <;> rfl
@[simp] theorem setSlot_ia (s : State) (sl : SlotId) (v : Slot) : (s.setSlot sl v).ia = s.ia := by cases sl <;> rfl
@[simp] theorem setSlot_cyc (s : State) (sl : SlotId) (v : Slot) : (s.setSlot sl v).cyc = s.cyc := by cases sl <;> rfl
@[simp] theorem setSlot_mem (s : State) (sl : SlotId) (v : Slot) : (s.setSlot sl v).mem = s.mem := by cases sl <;> rfl
@[simp] theorem setSlot_slotB (s : State) (sl : SlotId) (v : Slot) : (s.setSlot sl v).slotB = if sl = .b then v else s.slotB := by cases sl <;> rfl
@[simp] theorem setSlot_slotA (s : State) (sl : SlotId) (v : Slot) : (s.setSlot sl v).slotA = if sl = .a then v else s.slotA := by cases sl <;> rfl
@[simp] theorem setSlot_params (s : State) (sl : SlotId) (v : Slot) : (s.setSlot sl v).params = s.params := by cases sl <;> rfl
@[simp] theorem setSlot_pending (s : State) (sl : SlotId) (v : Slot) : (s.setSlot sl v).pending = s.pending := by cases sl <;> rfl
@[simp] theorem setSlot_response (s : State) (sl : SlotId) (v : Slot) : (s.setSlot sl v).response = s.response := by cases sl <;> rfl
@[simp] theorem setSlot_freeCount (s : State) (sl : SlotId) (v : Slot) : (s.setSlot sl v).freeCount = s.freeCount := by cases sl <;> rfl

/-! ### `latchPlain` -/

@[simp] theorem latchPlain_x (s : State) (sl : SlotId) (e : Desc) : (s.latchPlain sl e).x = s.x := by cases sl <;> rfl
@[simp] theorem latchPlain_pc (s : State) (sl : SlotId) (e : Desc) : (s.latchPlain sl e).pc = s.pc := by cases sl <;> rfl
@[simp] theorem latchPlain_sp (s : State) (sl : SlotId) (e : Desc) : (s.latchPlain sl e).sp = s.sp := by cases sl <;> rfl
@[simp] theorem latchPlain_ex (s : State) (sl : SlotId) (e : Desc) : (s.latchPlain sl e).ex = s.ex := by cases sl <;> rfl
@[simp] theorem latchPlain_ia (s : State) (sl : SlotId) (e : Desc) : (s.latchPlain sl e).ia = s.ia := by cases sl <;> rfl
@[simp] theorem latchPlain_cyc (s : State) (sl : SlotId) (e : Desc) : (s.latchPlain sl e).cyc = s.cyc := by cases sl <;> rfl
@[simp] theorem latchPlain_mem (s : State) (sl : SlotId) (e : Desc) : (s.latchPlain sl e).mem = s.mem := by cases sl <;> rfl
@[simp] theorem latchPlain_params (s : State) (sl : SlotId) (e : Desc) : (s.latchPlain sl e).params = s.params := by cases sl <;> rfl
@[simp] theorem latchPlain_pending (s : State) (sl : SlotId) (e : Desc) : (s.latchPlain sl e).pending = s.pending := by cases sl <;> rfl
@[simp] theorem latchPlain_response (s : State) (sl : SlotId) (e : Desc) : (s.latchPlain sl e).response = s.response := by cases sl <;> rfl
@[simp] theorem latchPlain_freeCount (s : State) (sl : SlotId) (e : Desc) : (s.latchPlain sl e).freeCount = s.freeCount + 1 := by cases sl <;> rfl

/-! ### `latchExtra` -/

@[simp] theorem latchExtra_x (s : State) (sl : SlotId) (e : Desc) : (s.latchExtra sl e).x = s.x := by cases sl <;> rfl
@[simp] theorem latchExtra_pc (s : State) (sl : SlotId) (e : Desc) : (s.latchExtra sl e).pc = incr s.pc := by cases sl <;> rfl
@[simp] theorem latchExtra_sp (s : State) (sl : SlotId) (e : Desc) : (s.latchExtra sl e).sp = s.sp := by cases sl <;> rfl
@[simp] theorem latchExtra_ex (s : State) (sl : SlotId) (e : Desc) : (s.latchExtra sl e).ex = s.ex := by cases sl <;> rfl
@[simp] theorem latchExtra_ia (s : State) (sl : SlotId) (e : Desc) : (s.latchExtra sl e).ia = s.ia := by cases sl <;> rfl
@[simp] theorem latchExtra_cyc (s : State) (sl : SlotId) (e : Desc) : (s.latchExtra sl e).cyc = s.cyc + 1 := by cases sl <;> rfl
@[simp] theorem latchExtra_mem (s : State) (sl : SlotId) (e : Desc) : (s.latchExtra sl e).mem = s.mem := by cases sl <;> rfl
@[simp] theorem latchExtra_params (s : State) (sl : SlotId) (e : Desc) : (s.latchExtra sl e).params = s.params := by cases sl <;> rfl
@[simp] theorem latchExtra_pending (s : State) (sl : SlotId) (e : Desc) : (s.latchExtra sl e).pending = s.pending := by cases sl <;> rfl
@[simp] theorem latchExtra_response (s : State) (sl : SlotId) (e : Desc) : (s.latchExtra sl e).response = s.response := by cases sl <;> rfl
@[simp] theorem latchExtra_freeCount (s : State) (sl : SlotId) (e : Desc) : (s.latchExtra sl e).freeCount = s.freeCount := by cases sl <;> rfl

/-! ### `resetCore` -/

@[simp] theorem resetCore_x (s : State) : s.resetCore.x = s.params.initRegs := rfl
@[simp] theorem resetCore_pc (s : State) : s.resetCore.pc = 0 := rfl
@[simp] theorem resetCore_sp (s : State) : s.resetCore.sp = s.params.spInit := rfl
@[simp] theorem resetCore_ex (s : State) : s.resetCore.ex = s.params.initEx := rfl
@[simp] theorem resetCore_ia (s : State) : s.resetCore.ia = s.params.initIa := rfl
@[simp] theorem resetCore_cyc (s : State) : s.resetCore.cyc = 0 := rfl
@[simp] theorem resetCore_mem (s : State) : s.resetCore.mem = s.params.memInit := rfl
@[simp] theorem resetCore_slotB (s : State) : s.resetCore.slotB = Slot.unloaded s.freeCount := rfl
@[simp] theorem resetCore_slotA (s : State) : s.resetCore.slotA = Slot.unloaded (s.freeCount + 1) := rfl
@[simp] theorem resetCore_params (s : State) : s.resetCore.params = s.params := rfl
@[simp] theorem resetCore_pending (s : State) : s.resetCore.pending = s.pending := rfl
@[simp] theorem resetCore_response (s : State) : s.resetCore.response = s.response := rfl
@[simp] theorem resetCore_freeCount (s : State) : s.resetCore.freeCount = s.freeCount + 2 := rfl

/-! ### The accessors -/

@[simp] theorem slot_b (s : State) : s.slot .b = s.slotB := rfl
@[simp] theorem slot_a (s : State) : s.slot .a = s.slotA := rfl

theorem memSize_eq_of_params {s t : State} (h : t.params = s.params) : t.memSize = s.memSize := by
  simp [State.memSize, h]

theorem memSize_pos (s : State) : 0 < s.memSize := Nat.two_pow_pos _

theorem cellOf_lt (s : State) (k : Nat) : s.cellOf k < s.memSize := Nat.mod_lt _ (memSize_pos s)

@[simp] theorem respond_slot (s : State) (r : Response) (sl : SlotId) : (s.respond r).slot sl = s.slot sl := by
  cases sl <;> rfl

@[simp] theorem respond_memSize (s : State) (r : Response) : (s.respond r).memSize = s.memSize := rfl

@[simp] theorem respond_reg (s : State) (r : Response) (i : RegIdx) : (s.respond r).reg i = s.reg i := rfl

/-- Reading a register after writing one. -/
theorem reg_setReg (s : State) (r i : RegIdx) (v : Int) :
    (s.setReg r v).reg i = if i = r then norm16 v else s.reg i := by
  simp only [State.reg, State.setReg, Vector.getElem_set]
  by_cases h : i = r
  · simp [h]
  · have : r.toNat ≠ i.toNat := fun e => h (BitVec.eq_of_toNat_eq e.symm)
    simp [h, this]

/-- Reading a slot after writing one: the two slots share nothing (10_state.md R32). -/
theorem slot_setSlot (s : State) (sl i : SlotId) (v : Slot) :
    (s.setSlot sl v).slot i = if i = sl then v else s.slot i := by
  cases sl <;> cases i <;> rfl

end Sys2Proof.Machine
end

