-- ==== Sys2Proof/Laws/Ops.lean ====
section
/-! SUPPORT. What each shared operation of Machine/Ops.lean and Machine/Operands.lean can do, said once. -/

namespace Sys2Proof.Machine

/-! ### The normaliser and the increment unit -/

theorem norm16_of_nonneg {v : Int} (h : 0 ≤ v) : norm16 v = BitVec.ofNat 16 v.toNat := if_pos h

theorem norm16_of_neg {v : Int} (h : v < 0) : norm16 v = BitVec.ofNat 16 (v.natAbs + 0x8000) :=
  if_neg (Int.not_le.mpr h)

/-- On a word the normaliser is the identity (R80). -/
@[simp] theorem norm16_word (w : Word) : norm16 (w.toNat : Int) = w := by
  simp [norm16_of_nonneg]

@[simp] theorem incr_decr (w : Word) : incr (decr w) = w := by simp [incr, decr]
@[simp] theorem decr_incr (w : Word) : decr (incr w) = w := by simp [incr, decr]

/-- The increment as addition modulo 65536 (R85, R87). -/
theorem incr_ofNat (w : Word) : incr w = BitVec.ofNat 16 (w.toNat + 1) := by
  apply BitVec.eq_of_toNat_eq
  simp [incr, BitVec.toNat_add]

/-- The decrement as addition of 65535 modulo 65536 (R86, the spec's decision D7). -/
theorem decr_ofNat (w : Word) : decr w = BitVec.ofNat 16 (w.toNat + 65535) := by
  apply BitVec.eq_of_toNat_eq
  simp [decr, BitVec.toNat_sub]
  omega

/-! ### Memory -/

/-- A write changes the one cell its address reaches (R82). -/
theorem read_memWrite {s : State} (h : s.mem.wf = true) (addr k : Nat) (v : Int) :
    (s.memWrite addr v).mem.read k = if k = s.cellOf addr then norm16 v else s.mem.read k :=
  Memory.read_write h _ _ _

@[simp] theorem memRead_word (s : State) (addr : Nat) : (s.memRead addr).1 = s.mem.read (s.cellOf addr) := rfl

theorem wf_memWrite {s : State} (h : s.mem.wf = true) (addr : Nat) (v : Int) :
    (s.memWrite addr v).mem.wf = true := Memory.wf_write h _ _

theorem inside_memWrite {s : State} (h : s.mem.inside s.memSize = true) (addr : Nat) (v : Int) :
    (s.memWrite addr v).mem.inside s.memSize = true := Memory.inside_write (cellOf_lt s addr) h

/-- A push changes the one cell that the decremented `sp` reaches (R154). -/
theorem read_pushWord {s : State} (h : s.mem.wf = true) (k : Nat) (v : Int) :
    (s.pushWord v).mem.read k = if k = s.cellOf (decr s.sp).toNat then norm16 v else s.mem.read k :=
  Memory.read_write h _ _ _

/-- A push keeps the canonical form of memory. -/
theorem wf_pushWord {s : State} (h : s.mem.wf = true) (v : Int) : (s.pushWord v).mem.wf = true :=
  Memory.wf_write h _ _

@[simp] theorem nextWord_word (s : State) : s.nextWord.1 = s.mem.read (s.cellOf s.pc.toNat) := rfl
@[simp] theorem popWord_word (s : State) : s.popWord.1 = s.mem.read (s.cellOf s.sp.toNat) := rfl
@[simp] theorem pushSlot_word (s : State) : s.pushSlot.1 = decr s.sp := rfl
@[simp] theorem popSlot_word (s : State) : s.popSlot.1 = s.sp := rfl

/-! ### LOAD -/

/-- What LOAD leaves in the slot it addresses when the mode takes no extra word; the other slot stays (R110). -/
theorem latchPlain_slot (s : State) (sl i : SlotId) (e : Desc) :
    (s.latchPlain sl e).slot i =
      if i = sl then { loaded := true, enc := e, hasExtra := false, extra := Config.freeExtra s.freeCount }
      else s.slot i := by
  cases sl <;> cases i <;> rfl

/-- What LOAD leaves in the slot it addresses when the mode takes an extra word; the other slot stays (R110). -/
theorem latchExtra_slot (s : State) (sl i : SlotId) (e : Desc) :
    (s.latchExtra sl e).slot i =
      if i = sl then { loaded := true, enc := e, hasExtra := true, extra := s.nextWord.1 } else s.slot i := by
  cases sl <;> cases i <;> rfl

/-! ### Answers and the loaded test -/

/-- GET and SET on a loaded slot go on with that slot. -/
theorem withLoaded_of_loaded {s : State} {sl : SlotId} (h : (s.slot sl).loaded = true)
    (k : Slot → Host.Outcome State Fault Refusal) : s.withLoaded sl k = k (s.slot sl) := if_pos h

/-- GET and SET on a slot that is not loaded are refused (R201). -/
theorem withLoaded_of_not_loaded {s : State} {sl : SlotId} (h : (s.slot sl).loaded = false)
    (k : Slot → Host.Outcome State Fault Refusal) : s.withLoaded sl k = .refused (.unloadedSlot sl) := by
  simp [State.withLoaded, h]

/-- A next state of GET or SET comes from the case of a loaded slot. -/
theorem withLoaded_next {s t : State} {sl : SlotId} {k : Slot → Host.Outcome State Fault Refusal}
    (h : s.withLoaded sl k = .next t) : (s.slot sl).loaded = true ∧ k (s.slot sl) = .next t := by
  unfold State.withLoaded at h
  split at h
  · exact ⟨‹_›, h⟩
  · cases h

/-- A command that returns nothing ends in the state given, with the response cleared. -/
theorem answerNone_next {s t : State} : answerNone s = .next t ↔ s.respond .none = t := by
  simp [answerNone]

/-- A command that returns a word ends in the state given, with the word as its response. -/
theorem answerWord_next {p : Word × State} {t : State} :
    answerWord p = .next t ↔ p.2.respond (.word p.1) = t := by
  simp [answerWord]

/-- The input taken and the state after it: the rest stays pending and nothing else changes. -/
theorem takeInput_some {s s' : State} {inp : Input} (h : s.takeInput = some (inp, s')) :
    ∃ rest, s.pending = inp :: rest ∧ s' = { s with pending := rest } := by
  unfold State.takeInput at h
  split at h
  · cases h
  · rename_i i rest hp
    cases h
    exact ⟨rest, hp, rfl⟩

end Sys2Proof.Machine
end

