-- ==== Sys2Proof/Laws/PerInstr.lean ====
section
/-! SUPPORT. The family RowFits: the bits of an instruction, with its register index or literal in place, fit
its row of the opcode table (spec/30_encoding.md R61). One lemma per constructor. -/

namespace Sys2Proof.Laws.RowFits

/-- The instruction's bits fit its own row. -/
def Statement (i : Instr) : Prop := i.row.fits i.bits = true

theorem reset : Statement (.reset) := by
  show (⟨0x0, 0x7C0⟩ : Row).fits 0x0 = true
  decide
theorem rdmem (_addr : Word) : Statement (.rdmem _addr) := by
  show (⟨0x40, 0x7C0⟩ : Row).fits 0x40 = true
  decide
theorem wrmem (_addr : Word) (_wdata : Int) : Statement (.wrmem _addr _wdata) := by
  show (⟨0x80, 0x7C0⟩ : Row).fits 0x80 = true
  decide
theorem rdreg (_idx : RegIdx) : Statement (.rdreg _idx) := by
  show (⟨0xC0, 0x7C0⟩ : Row).fits 0xC0 = true
  decide
theorem wrreg (_idx : RegIdx) (_wdata : Int) : Statement (.wrreg _idx _wdata) := by
  show (⟨0x100, 0x7C0⟩ : Row).fits 0x100 = true
  decide
theorem nextword : Statement (.nextword) := by
  show (⟨0x140, 0x7C0⟩ : Row).fits 0x140 = true
  decide
theorem pushslot : Statement (.pushslot) := by
  show (⟨0x180, 0x7C0⟩ : Row).fits 0x180 = true
  decide
theorem popslot : Statement (.popslot) := by
  show (⟨0x1C0, 0x7C0⟩ : Row).fits 0x1C0 = true
  decide
theorem peekaddr : Statement (.peekaddr) := by
  show (⟨0x200, 0x7C0⟩ : Row).fits 0x200 = true
  decide
theorem getpc : Statement (.getpc) := by
  show (⟨0x240, 0x7C0⟩ : Row).fits 0x240 = true
  decide
theorem setpc (_wdata : Int) : Statement (.setpc _wdata) := by
  show (⟨0x280, 0x7C0⟩ : Row).fits 0x280 = true
  decide
theorem getsp : Statement (.getsp) := by
  show (⟨0x2C0, 0x7C0⟩ : Row).fits 0x2C0 = true
  decide
theorem setsp (_wdata : Int) : Statement (.setsp _wdata) := by
  show (⟨0x300, 0x7C0⟩ : Row).fits 0x300 = true
  decide
theorem getex : Statement (.getex) := by
  show (⟨0x340, 0x7C0⟩ : Row).fits 0x340 = true
  decide
theorem setex (_wdata : Int) : Statement (.setex _wdata) := by
  show (⟨0x380, 0x7C0⟩ : Row).fits 0x380 = true
  decide
theorem getia : Statement (.getia) := by
  show (⟨0x3C0, 0x7C0⟩ : Row).fits 0x3C0 = true
  decide
theorem setia (_wdata : Int) : Statement (.setia _wdata) := by
  show (⟨0x400, 0x7C0⟩ : Row).fits 0x400 = true
  decide
theorem getcyc : Statement (.getcyc) := by
  show (⟨0x440, 0x7C0⟩ : Row).fits 0x440 = true
  decide
theorem loadReg (_sl : SlotId) (r : RegIdx) : Statement (.loadReg _sl r) := by
  have h : ∀ r : RegIdx, (⟨0x480, 0x7F8⟩ : Row).fits (0x480 + r.toNat) = true := by decide
  exact h r
theorem loadInd (_sl : SlotId) (r : RegIdx) : Statement (.loadInd _sl r) := by
  have h : ∀ r : RegIdx, (⟨0x488, 0x7F8⟩ : Row).fits (0x488 + r.toNat) = true := by decide
  exact h r
theorem loadIdx (_sl : SlotId) (r : RegIdx) : Statement (.loadIdx _sl r) := by
  have h : ∀ r : RegIdx, (⟨0x490, 0x7F8⟩ : Row).fits (0x490 + r.toNat) = true := by decide
  exact h r
theorem loadStk (_sl : SlotId) : Statement (.loadStk _sl) := by
  show (⟨0x498, 0x7FF⟩ : Row).fits 0x498 = true
  decide
theorem loadPeek (_sl : SlotId) : Statement (.loadPeek _sl) := by
  show (⟨0x499, 0x7FF⟩ : Row).fits 0x499 = true
  decide
theorem loadPick (_sl : SlotId) : Statement (.loadPick _sl) := by
  show (⟨0x49A, 0x7FF⟩ : Row).fits 0x49A = true
  decide
theorem loadSpd (_sl : SlotId) : Statement (.loadSpd _sl) := by
  show (⟨0x49B, 0x7FF⟩ : Row).fits 0x49B = true
  decide
theorem loadPcd (_sl : SlotId) : Statement (.loadPcd _sl) := by
  show (⟨0x49C, 0x7FF⟩ : Row).fits 0x49C = true
  decide
theorem loadExd (_sl : SlotId) : Statement (.loadExd _sl) := by
  show (⟨0x49D, 0x7FF⟩ : Row).fits 0x49D = true
  decide
theorem loadAbs (_sl : SlotId) : Statement (.loadAbs _sl) := by
  show (⟨0x49E, 0x7FF⟩ : Row).fits 0x49E = true
  decide
theorem loadImm (_sl : SlotId) : Statement (.loadImm _sl) := by
  show (⟨0x49F, 0x7FF⟩ : Row).fits 0x49F = true
  decide
theorem loadLit (_sl : SlotId) (n : BitVec 5) : Statement (.loadLit _sl n) := by
  have h : ∀ n : BitVec 5, (⟨0x4A0, 0x7E0⟩ : Row).fits (0x4A0 + n.toNat) = true := by decide
  exact h n
theorem getReg (_sl : SlotId) (r : RegIdx) : Statement (.getReg _sl r) := by
  have h : ∀ r : RegIdx, (⟨0x4C0, 0x7F8⟩ : Row).fits (0x4C0 + r.toNat) = true := by decide
  exact h r
theorem getInd (_sl : SlotId) (r : RegIdx) : Statement (.getInd _sl r) := by
  have h : ∀ r : RegIdx, (⟨0x4C8, 0x7F8⟩ : Row).fits (0x4C8 + r.toNat) = true := by decide
  exact h r
theorem getIdx (_sl : SlotId) (r : RegIdx) : Statement (.getIdx _sl r) := by
  have h : ∀ r : RegIdx, (⟨0x4D0, 0x7F8⟩ : Row).fits (0x4D0 + r.toNat) = true := by decide
  exact h r
theorem getStk (_sl : SlotId) : Statement (.getStk _sl) := by
  show (⟨0x4D8, 0x7FF⟩ : Row).fits 0x4D8 = true
  decide
theorem getPeek (_sl : SlotId) : Statement (.getPeek _sl) := by
  show (⟨0x4D9, 0x7FF⟩ : Row).fits 0x4D9 = true
  decide
theorem getPick (_sl : SlotId) : Statement (.getPick _sl) := by
  show (⟨0x4DA, 0x7FF⟩ : Row).fits 0x4DA = true
  decide
theorem getSpd (_sl : SlotId) : Statement (.getSpd _sl) := by
  show (⟨0x4DB, 0x7FF⟩ : Row).fits 0x4DB = true
  decide
theorem getPcd (_sl : SlotId) : Statement (.getPcd _sl) := by
  show (⟨0x4DC, 0x7FF⟩ : Row).fits 0x4DC = true
  decide
theorem getExd (_sl : SlotId) : Statement (.getExd _sl) := by
  show (⟨0x4DD, 0x7FF⟩ : Row).fits 0x4DD = true
  decide
theorem getAbs (_sl : SlotId) : Statement (.getAbs _sl) := by
  show (⟨0x4DE, 0x7FF⟩ : Row).fits 0x4DE = true
  decide
theorem getImm (_sl : SlotId) : Statement (.getImm _sl) := by
  show (⟨0x4DF, 0x7FF⟩ : Row).fits 0x4DF = true
  decide
theorem getLit (_sl : SlotId) (n : BitVec 5) : Statement (.getLit _sl n) := by
  have h : ∀ n : BitVec 5, (⟨0x4E0, 0x7E0⟩ : Row).fits (0x4E0 + n.toNat) = true := by decide
  exact h n
theorem setReg (_sl : SlotId) (r : RegIdx) (_wdata : Int) : Statement (.setReg _sl r _wdata) := by
  have h : ∀ r : RegIdx, (⟨0x500, 0x7F8⟩ : Row).fits (0x500 + r.toNat) = true := by decide
  exact h r
theorem setInd (_sl : SlotId) (r : RegIdx) (_wdata : Int) : Statement (.setInd _sl r _wdata) := by
  have h : ∀ r : RegIdx, (⟨0x508, 0x7F8⟩ : Row).fits (0x508 + r.toNat) = true := by decide
  exact h r
theorem setIdx (_sl : SlotId) (r : RegIdx) (_wdata : Int) : Statement (.setIdx _sl r _wdata) := by
  have h : ∀ r : RegIdx, (⟨0x510, 0x7F8⟩ : Row).fits (0x510 + r.toNat) = true := by decide
  exact h r
theorem setStk (_sl : SlotId) (_wdata : Int) : Statement (.setStk _sl _wdata) := by
  show (⟨0x518, 0x7FF⟩ : Row).fits 0x518 = true
  decide
theorem setPeek (_sl : SlotId) (_wdata : Int) : Statement (.setPeek _sl _wdata) := by
  show (⟨0x519, 0x7FF⟩ : Row).fits 0x519 = true
  decide
theorem setPick (_sl : SlotId) (_wdata : Int) : Statement (.setPick _sl _wdata) := by
  show (⟨0x51A, 0x7FF⟩ : Row).fits 0x51A = true
  decide
theorem setSpd (_sl : SlotId) (_wdata : Int) : Statement (.setSpd _sl _wdata) := by
  show (⟨0x51B, 0x7FF⟩ : Row).fits 0x51B = true
  decide
theorem setPcd (_sl : SlotId) (_wdata : Int) : Statement (.setPcd _sl _wdata) := by
  show (⟨0x51C, 0x7FF⟩ : Row).fits 0x51C = true
  decide
theorem setExd (_sl : SlotId) (_wdata : Int) : Statement (.setExd _sl _wdata) := by
  show (⟨0x51D, 0x7FF⟩ : Row).fits 0x51D = true
  decide
theorem setAbs (_sl : SlotId) (_wdata : Int) : Statement (.setAbs _sl _wdata) := by
  show (⟨0x51E, 0x7FF⟩ : Row).fits 0x51E = true
  decide
theorem setImm (_sl : SlotId) (_wdata : Int) : Statement (.setImm _sl _wdata) := by
  show (⟨0x51F, 0x7FF⟩ : Row).fits 0x51F = true
  decide
theorem setLit (_sl : SlotId) (n : BitVec 5) (_wdata : Int) : Statement (.setLit _sl n _wdata) := by
  have h : ∀ n : BitVec 5, (⟨0x520, 0x7E0⟩ : Row).fits (0x520 + n.toNat) = true := by decide
  exact h n
theorem encReg (r : RegIdx) : Statement (.encReg r) := by
  have h : ∀ r : RegIdx, (⟨0x0, 0x38⟩ : Row).fits (0x0 + r.toNat) = true := by decide
  exact h r
theorem encInd (r : RegIdx) : Statement (.encInd r) := by
  have h : ∀ r : RegIdx, (⟨0x8, 0x38⟩ : Row).fits (0x8 + r.toNat) = true := by decide
  exact h r
theorem encIdx (r : RegIdx) : Statement (.encIdx r) := by
  have h : ∀ r : RegIdx, (⟨0x10, 0x38⟩ : Row).fits (0x10 + r.toNat) = true := by decide
  exact h r
theorem encStk : Statement (.encStk) := by
  show (⟨0x18, 0x3F⟩ : Row).fits 0x18 = true
  decide
theorem encPeek : Statement (.encPeek) := by
  show (⟨0x19, 0x3F⟩ : Row).fits 0x19 = true
  decide
theorem encPick : Statement (.encPick) := by
  show (⟨0x1A, 0x3F⟩ : Row).fits 0x1A = true
  decide
theorem encSpd : Statement (.encSpd) := by
  show (⟨0x1B, 0x3F⟩ : Row).fits 0x1B = true
  decide
theorem encPcd : Statement (.encPcd) := by
  show (⟨0x1C, 0x3F⟩ : Row).fits 0x1C = true
  decide
theorem encExd : Statement (.encExd) := by
  show (⟨0x1D, 0x3F⟩ : Row).fits 0x1D = true
  decide
theorem encAbs : Statement (.encAbs) := by
  show (⟨0x1E, 0x3F⟩ : Row).fits 0x1E = true
  decide
theorem encImm : Statement (.encImm) := by
  show (⟨0x1F, 0x3F⟩ : Row).fits 0x1F = true
  decide
theorem encLit (n : BitVec 5) : Statement (.encLit n) := by
  have h : ∀ n : BitVec 5, (⟨0x20, 0x20⟩ : Row).fits (0x20 + n.toNat) = true := by decide
  exact h n

end Sys2Proof.Laws.RowFits
end

