-- ==== Sys2Proof/Laws/Step.lean ====
section
/-! SUPPORT. What one step can do, said once; and how runs of steps unfold. -/

namespace Sys2Proof.Machine

/-- The descriptor the decoder sees for a slot: that of the slot if it is loaded (R61). -/
@[simp] theorem pickSlotEnc_slots (s : State) (sl : SlotId) :
    pickSlotEnc s.slotB.enc? s.slotA.enc? sl = (s.slot sl).enc? := by cases sl <;> rfl

/-- With no command presented the step changes nothing. -/
theorem step_idle {s : State} (h : s.pending = []) : step s = .next s := by
  simp [step, State.takeInput, h]

/-- A step decodes the first pending input and runs it in the state with that input taken. -/
theorem step_cons {s : State} {inp : Input} {rest : List Input} (h : s.pending = inp :: rest) :
    step s = match s.decodeInput inp with
      | .ok i => exec i { s with pending := rest }
      | .error e => .refused (refusalOf e) := by
  have ht : s.takeInput = some (inp, { s with pending := rest }) := by simp [State.takeInput, h]
  cases hd : s.decodeInput inp with
  | ok i => simp only [step, ht, hd]
  | error e => simp only [step, ht, hd]

/-- The inversion of a step that answers a next state: it was idle, or it ran the instruction decoded. -/
theorem step_next {s t : State} (h : step s = .next t) :
    (s.pending = [] ∧ t = s) ∨
      ∃ inp rest i, s.pending = inp :: rest ∧ s.decodeInput inp = .ok i ∧
        exec i { s with pending := rest } = .next t := by
  cases hp : s.pending with
  | nil =>
    rw [step_idle hp] at h
    cases h
    exact .inl ⟨rfl, rfl⟩
  | cons inp rest =>
    rw [step_cons hp] at h
    cases hd : s.decodeInput inp with
    | ok i =>
      rw [hd] at h
      exact .inr ⟨inp, rest, i, rfl, hd, h⟩
    | error e =>
      rw [hd] at h
      cases h

/-- One more step of a run that goes on. -/
theorem run_succ {k : Nat} {s s' : State} (h : step s = .next s') :
    Host.Core.run core (k + 1) s = Host.Core.run core k s' := by
  have hc : core.step s = .next s' := h
  simp only [Host.Core.run]
  rw [hc]

@[simp] theorem run_zero (s : State) : Host.Core.run core 0 s = .next s := rfl

end Sys2Proof.Machine
end

