-- ==== Sys2Proof/Tests/Slice0.lean ====
section
/-! SUPPORT. Tests: ill-formed transactions, decoding of words written out from the spec's table, the vectors of
spec/95_test_vectors.md (V1 to V12, S8 to S11), and a witness for the hypotheses of each statement. -/

namespace Sys2Proof.Tests

open Sys2Proof.Machine

/-! ### Helpers -/

/-- The next state, if there is one. -/
def nextOf : Host.Outcome State Fault Refusal → Option State
  | .next t => some t
  | .fault _ => none
  | .refused _ => none

/-- The refusal, if there is one. -/
def refusalIn : Host.Outcome State Fault Refusal → Option Refusal
  | .next _ => none
  | .fault _ => none
  | .refused r => some r

/-- What the vectors' tables show after a command: the result, `pc`, `sp` and `cyc`. -/
def look (o : Host.Outcome State Fault Refusal) : Option (Response × Word × Word × Nat) :=
  (nextOf o).map fun t => (t.response, t.pc, t.sp, t.cyc)

/-- A line of V7: slot "a" after a LOAD, with `pc`, `sp` and `cyc`. -/
structure LoadLine where
  loaded   : Bool
  enc      : Desc
  hasExtra : Bool
  pc       : Word
  sp       : Word
  cyc      : Nat
  deriving DecidableEq, Repr

/-- The line of V7 that a command ends in. -/
def lookSlot (o : Host.Outcome State Fault Refusal) : Option LoadLine :=
  (nextOf o).map fun t => ⟨t.slotA.loaded, t.slotA.enc, t.slotA.hasExtra, t.pc, t.sp, t.cyc⟩

/-- `s` with the inputs `is` to be presented. -/
def withInputs (s : State) (is : List Input) : State := { s with pending := is }

/-- `s` after the commands `is`. -/
def runAll (s : State) (is : List Input) : Host.Outcome State Fault Refusal :=
  Host.Core.run core is.length (withInputs s is)

/-- A slot loaded with the descriptor `e` and the extra word `w`. -/
def holding (e : Desc) (w : Word) : Slot := { loaded := true, enc := e, hasExtra := needsExtra e, extra := w }

/-- The state of V8, which is that of V9 too but for `x[3]`. -/
def v8 : State :=
  { State.reset with
    x := #v[0x2000, 0x0005, 0x00AA, 0x0BAD, 0, 0, 0, 0xFFFF], sp := 0xFFFC, ex := 0x0001, pc := 0x0011,
    mem := [(0x0001, 0x0E0E), (0x0004, 0x0077), (0x0005, 0x0055), (0x2000, 0x0042), (0x2003, 0x0099),
            (0xFFFC, 0x0A0A), (0xFFFD, 0x0B0B), (0xFFFE, 0x0C0C), (0xFFFF, 0x0D0D)] }

/-- The state of V8 with `e` and `w` in slot "a", and GET of it presented. -/
def getOf (e : Desc) (w : Word) : State := { v8 with slotA := holding e w, pending := [getTransaction .a] }

/-- The state of V9 with `e` and `w` in slot "b", and SET of it presented. -/
def setOf (e : Desc) (w : Word) (v : Int) : State :=
  { v8 with slotB := holding e w, pending := [setTransaction .b v] }

/-- The state of V9 line 21: `MEMSIZE = 4096`. -/
def small (s : State) : State := { s with params := { s.params with memBits := 12 } }

/-- The state of V7. -/
def v7 : State := { State.reset with pc := 0x0010, mem := [(0x0010, 0xBEEF)] }

/-- LOAD of a descriptor into a slot, as R10 presents it. -/
def load (slot : BitVec 1) (e : Desc) : Input := .command { idleTransaction 0x12 with slot := slot, enc := e }

/-- A transaction as R10 presents it, its code written out. -/
def cmd (c : BitVec 5) : Input := .command (idleTransaction c)

/-! ### Well-formed transactions (R10, R11) -/

theorem test_wellFormed_load : (load 1 0x3F).wellFormed = true := by decide
theorem test_wellFormed_refuses_unassigned_code : (cmd 0x15).wellFormed = false := by decide
theorem test_wellFormed_refuses_stray_enc :
    (Input.command { idleTransaction 0x05 with enc := 1 }).wellFormed = false := by decide
theorem test_wellFormed_refuses_stray_slot :
    (Input.command { idleTransaction 0x09 with slot := 1 }).wellFormed = false := by decide
theorem test_wellFormed_refuses_stray_idx :
    (Input.command { idleTransaction 0x01 with idx := 3 }).wellFormed = false := by decide
theorem test_wellFormed_refuses_stray_addr :
    (Input.command { idleTransaction 0x03 with addr := 9 }).wellFormed = false := by decide
theorem test_wellFormed_refuses_stray_wdata :
    (Input.command { idleTransaction 0x13 with wdata := -1 }).wellFormed = false := by decide

/-! ### Decoding (spec/30_encoding.md R61, R62, R66 to R77; spec/opcode_table.json): every row -/

theorem test_decode_command_rows :
    [0b00000000000, 0b00001000000, 0b00010000000, 0b00011000000, 0b00100000000, 0b00101000000, 0b00110000000,
      0b00111000000, 0b01000000000].map (decodeTableWord 16) =
    [some .reset, some (.rdmem 0), some (.wrmem 0 0), some (.rdreg 0), some (.wrreg 0 0), some .nextword,
      some .pushslot, some .popslot, some .peekaddr] := by decide

theorem test_decode_accessor_rows :
    [0b01001000000, 0b01010000000, 0b01011000000, 0b01100000000, 0b01101000000, 0b01110000000, 0b01111000000,
      0b10000000000, 0b10001000000].map (decodeTableWord 16) =
    [some .getpc, some (.setpc 0), some .getsp, some (.setsp 0), some .getex, some (.setex 0), some .getia,
      some (.setia 0), some .getcyc] := by decide

theorem test_decode_load_rows :
    [0b10010000010, 0b10010001111, 0b10010010001, 0b10010011000, 0b10010011001, 0b10010011010, 0b10010011011,
      0b10010011100, 0b10010011101, 0b10010011110, 0b10010011111, 0b10010111111].map (decodeTableWord 16) =
    [some (.loadReg .b 2), some (.loadInd .b 7), some (.loadIdx .b 1), some (.loadStk .b), some (.loadPeek .b),
      some (.loadPick .b), some (.loadSpd .b), some (.loadPcd .b), some (.loadExd .b), some (.loadAbs .b),
      some (.loadImm .b), some (.loadLit .b 31)] := by decide

theorem test_decode_get_rows :
    [0b10011000010, 0b10011001111, 0b10011010001, 0b10011011000, 0b10011011001, 0b10011011010, 0b10011011011,
      0b10011011100, 0b10011011101, 0b10011011110, 0b10011011111, 0b10011100101].map (decodeTableWord 16) =
    [some (.getReg .b 2), some (.getInd .b 7), some (.getIdx .b 1), some (.getStk .b), some (.getPeek .b),
      some (.getPick .b), some (.getSpd .b), some (.getPcd .b), some (.getExd .b), some (.getAbs .b),
      some (.getImm .b), some (.getLit .b 5)] := by decide

theorem test_decode_set_rows :
    [0b10100000010, 0b10100001111, 0b10100010001, 0b10100011000, 0b10100011001, 0b10100011010, 0b10100011011,
      0b10100011100, 0b10100011101, 0b10100011110, 0b10100011111, 0b10100100101].map (decodeTableWord 16) =
    [some (.setReg .b 2 0), some (.setInd .b 7 0), some (.setIdx .b 1 0), some (.setStk .b 0),
      some (.setPeek .b 0), some (.setPick .b 0), some (.setSpd .b 0), some (.setPcd .b 0), some (.setExd .b 0),
      some (.setAbs .b 0), some (.setImm .b 0), some (.setLit .b 5 0)] := by decide

theorem test_decode_descriptor_rows :
    [0b000101, 0b001111, 0b010111, 0b011000, 0b011001, 0b011010, 0b011011, 0b011100, 0b011101, 0b011110, 0b011111,
      0b100000, 0b111111].map (decodeTableWord 8) =
    [some (.encReg 5), some (.encInd 7), some (.encIdx 7), some .encStk, some .encPeek, some .encPick,
      some .encSpd, some .encPcd, some .encExd, some .encAbs, some .encImm, some (.encLit 0),
      some (.encLit 31)] := by decide

/-- V12: `enc` is ignored in the CMD rows; 0x15 and above is unassigned; no word is wider than its row. -/
theorem test_decode_bounds :
    decodeTableWord 16 0x17F = some .nextword ∧ decodeTableWord 16 0x53F = some (.setLit .b 31 0) ∧
      decodeTableWord 16 0x540 = none ∧ decodeTableWord 16 0x7FF = none ∧ decodeTableWord 16 0x800 = none ∧
      decodeTableWord 8 0x40 = none := by decide

/-- The other operands come from their ports (R11), the slot bit 1 is "a". -/
theorem test_decode_ports :
    decode none none (.command { idleTransaction 0x02 with addr := 0x1234, wdata := -5 }) = .ok (.wrmem 0x1234 (-5)) ∧
      decode none none (.command { idleTransaction 0x04 with idx := 6, wdata := 9 }) = .ok (.wrreg regI 9) ∧
      decode none none (load 1 0x1F) = .ok (.loadImm .a) ∧
      decode (some 0x18) (some 0x05) (getTransaction .a) = .ok (.getReg .a regZ) ∧
      decode (some 0x18) none (getTransaction .a) = .error (.unloadedSlot .a) := by
  refine ⟨rfl, rfl, rfl, rfl, rfl⟩

/-- V12: `needs_extra`. -/
theorem test_needsExtra :
    ([0x17, 0x18, 0x1A, 0x1B, 0x1E, 0x1F, 0x20, 0x0F, 0x10] : List Desc).map needsExtra =
      [true, false, true, false, true, true, false, false, true] := by decide

/-! ### V1: the normaliser (R80) -/

theorem test_norm16_nonnegative :
    ([0, 0x7FFF, 0x8000, 0xFFFF, 0x10000, 0x12345, 0x1FFFE, 0xFFFE0001] : List Int).map norm16 =
      [0x0000, 0x7FFF, 0x8000, 0xFFFF, 0x0000, 0x2345, 0xFFFE, 0x0001] := by decide

theorem test_norm16_negative :
    ([-1, -2, -100, -0x4000, -0x7FFF, -0x8000, -0x8001, -0xFFFF, -0x10000, -0x10001, -0x18000] : List Int).map norm16 =
      [0x8001, 0x8002, 0x8064, 0xC000, 0xFFFF, 0x0000, 0x0001, 0x7FFF, 0x8000, 0x8001, 0x0000] := by decide

/-! ### V2 to V6: the Machine State commands -/

theorem test_wrmem_folds_the_value :
    nextOf (exec (.wrmem 0x0010 0x1ABCD) State.reset) =
      some { State.reset with mem := [(0x0010, 0xABCD)], cyc := 1 } := by decide
theorem test_wrmem_folds_the_address :
    nextOf (exec (.wrmem 0xFFFE 7) (small State.reset)) =
      some { small State.reset with mem := [(0x0FFE, 7)], cyc := 1 } := by decide
theorem test_rdmem_of_an_alias :
    look (exec (.rdmem 0x1FFE) { small State.reset with mem := [(0x0FFE, 7)] }) =
      some (.word 7, 0, 0xFFFF, 1) := by decide
theorem test_rdmem_of_the_last_cell : look (exec (.rdmem 0xFFFF) v8) = some (.word 0x0D0D, 0x0011, 0xFFFC, 1) := by
  decide
theorem test_wrreg_folds_a_negative_value :
    (nextOf (exec (.wrreg regX (-1)) v8)).map (fun t => t.x) =
      some #v[0x2000, 0x0005, 0x00AA, 0x8001, 0, 0, 0, 0xFFFF] := by decide
theorem test_rdreg : look (exec (.rdreg regJ) v8) = some (.word 0xFFFF, 0x0011, 0xFFFC, 0) := by decide
theorem test_nextword_wraps :
    look (exec .nextword { State.reset with pc := 0xFFFF, mem := [(0, 0x00CD), (0xFFFF, 0x00AB)] }) =
      some (.word 0x00AB, 0, 0xFFFF, 1) := by decide
theorem test_nextword_folds_the_cell_not_pc :
    look (exec .nextword { small State.reset with pc := 0x1000, mem := [(0, 0x0777)] }) =
      some (.word 0x0777, 0x1001, 0xFFFF, 1) := by decide
theorem test_pushslot_at_zero :
    look (exec .pushslot { State.reset with sp := 0 }) = some (.word 0xFFFF, 0, 0xFFFF, 0) := by decide
theorem test_pushslot : look (exec .pushslot State.reset) = some (.word 0xFFFE, 0, 0xFFFE, 0) := by decide
theorem test_popslot_wraps : look (exec .popslot State.reset) = some (.word 0xFFFF, 0, 0, 0) := by decide
theorem test_peekaddr :
    look (exec .peekaddr { State.reset with sp := 0x1234 }) = some (.word 0x1234, 0, 0x1234, 0) := by decide
theorem test_getpc : look (exec .getpc v8) = some (.word 0x0011, 0x0011, 0xFFFC, 0) := by decide
theorem test_setpc : look (exec (.setpc (-1)) State.reset) = some (.none, 0x8001, 0xFFFF, 0) := by decide
theorem test_getsp : look (exec .getsp v8) = some (.word 0xFFFC, 0x0011, 0xFFFC, 0) := by decide
theorem test_setsp : look (exec (.setsp 0x0FFF) State.reset) = some (.none, 0, 0x0FFF, 0) := by decide
theorem test_getex : look (exec .getex v8) = some (.word 0x0001, 0x0011, 0xFFFC, 0) := by decide
theorem test_setex :
    nextOf (exec (.setex 0x1FFFF) State.reset) = some { State.reset with ex := 0xFFFF } := by decide
theorem test_getia : look (exec .getia { State.reset with ia := 0x0200 }) = some (.word 0x0200, 0, 0xFFFF, 0) := by
  decide
theorem test_setia : nextOf (exec (.setia 0x0200) State.reset) = some { State.reset with ia := 0x0200 } := by decide
theorem test_getcyc : look (exec .getcyc { v8 with cyc := 70000 }) = some (.count 70000, 0x0011, 0xFFFC, 70000) := by
  decide

/-! ### V7: LOAD, every mode, in slot "a" -/

theorem test_load_without_extra :
    ([0x00, 0x07, 0x08, 0x0F, 0x18, 0x19] : List Desc).map (fun e => lookSlot (step (withInputs v7 [load 1 e]))) =
      [some ⟨true, 0x00, false, 0x0010, 0xFFFF, 0⟩, some ⟨true, 0x07, false, 0x0010, 0xFFFF, 0⟩,
        some ⟨true, 0x08, false, 0x0010, 0xFFFF, 0⟩, some ⟨true, 0x0F, false, 0x0010, 0xFFFF, 0⟩,
        some ⟨true, 0x18, false, 0x0010, 0xFFFF, 0⟩, some ⟨true, 0x19, false, 0x0010, 0xFFFF, 0⟩] := by decide

theorem test_load_without_extra_2 :
    ([0x1B, 0x1C, 0x1D, 0x20, 0x3F] : List Desc).map (fun e => lookSlot (step (withInputs v7 [load 1 e]))) =
      [some ⟨true, 0x1B, false, 0x0010, 0xFFFF, 0⟩, some ⟨true, 0x1C, false, 0x0010, 0xFFFF, 0⟩,
        some ⟨true, 0x1D, false, 0x0010, 0xFFFF, 0⟩, some ⟨true, 0x20, false, 0x0010, 0xFFFF, 0⟩,
        some ⟨true, 0x3F, false, 0x0010, 0xFFFF, 0⟩] := by decide

theorem test_load_with_extra :
    ([0x10, 0x17, 0x1A, 0x1E, 0x1F] : List Desc).map (fun e => lookSlot (step (withInputs v7 [load 1 e]))) =
      [some ⟨true, 0x10, true, 0x0011, 0xFFFF, 1⟩, some ⟨true, 0x17, true, 0x0011, 0xFFFF, 1⟩,
        some ⟨true, 0x1A, true, 0x0011, 0xFFFF, 1⟩, some ⟨true, 0x1E, true, 0x0011, 0xFFFF, 1⟩,
        some ⟨true, 0x1F, true, 0x0011, 0xFFFF, 1⟩] := by decide

/-- The word latched, with `pc` at the top of the address space; slot "b" stays as it was. -/
theorem test_load_latches_the_word :
    (nextOf (exec (.loadAbs .a) { getOf 0x18 0 with pc := 0xFFFF })).map (fun t => (t.slotA, t.slotB, t.pc)) =
      some (holding 0x1E 0x0D0D, Slot.atReset, 0) := by decide

/-! ### V8: GET, every line -/

theorem test_get_registers :
    [look (step (getOf 0x02 0)), look (step (getOf 0x07 0)), look (step (getOf 0x1B 0)), look (step (getOf 0x1C 0)),
      look (step (getOf 0x1D 0))] =
    [some (.word 0x00AA, 0x0011, 0xFFFC, 0), some (.word 0xFFFF, 0x0011, 0xFFFC, 0),
      some (.word 0xFFFC, 0x0011, 0xFFFC, 0), some (.word 0x0011, 0x0011, 0xFFFC, 0),
      some (.word 0x0001, 0x0011, 0xFFFC, 0)] := by decide

theorem test_get_indirect_and_indexed :
    [look (step (getOf 0x08 0)), look (step (getOf 0x09 0)), look (step (getOf 0x10 3)),
      look (step (getOf 0x11 0xFFFF)), look (step (getOf 0x17 2))] =
    [some (.word 0x0042, 0x0011, 0xFFFC, 1), some (.word 0x0055, 0x0011, 0xFFFC, 1),
      some (.word 0x0099, 0x0011, 0xFFFC, 1), some (.word 0x0077, 0x0011, 0xFFFC, 1),
      some (.word 0x0E0E, 0x0011, 0xFFFC, 1)] := by decide

theorem test_get_stack :
    [look (step (getOf 0x18 0)), look (step { getOf 0x18 0 with sp := 0xFFFF }), look (step (getOf 0x19 0)),
      look (step (getOf 0x1A 2)), look (step (getOf 0x1A 5)), look (step (getOf 0x1A 0))] =
    [some (.word 0x0A0A, 0x0011, 0xFFFD, 1), some (.word 0x0D0D, 0x0011, 0x0000, 1),
      some (.word 0x0A0A, 0x0011, 0xFFFC, 1), some (.word 0x0C0C, 0x0011, 0xFFFC, 1),
      some (.word 0x0E0E, 0x0011, 0xFFFC, 1), some (.word 0x0A0A, 0x0011, 0xFFFC, 1)] := by decide

theorem test_get_absolute_immediate_literal :
    [look (step (getOf 0x1E 0x2000)), look (step (getOf 0x1F 0x1234)), look (step (getOf 0x20 0)),
      look (step (getOf 0x25 0)), look (step (getOf 0x3F 0))] =
    [some (.word 0x0042, 0x0011, 0xFFFC, 1), some (.word 0x1234, 0x0011, 0xFFFC, 0),
      some (.word 0x0000, 0x0011, 0xFFFC, 0), some (.word 0x0005, 0x0011, 0xFFFC, 0),
      some (.word 0x001F, 0x0011, 0xFFFC, 0)] := by decide

/-- S5: a POP leaves the cell and everything else but `sp`, `cyc` and the result as they were. -/
theorem test_get_pop_changes_nothing_else :
    nextOf (step (getOf 0x18 0)) =
      some { getOf 0x18 0 with sp := 0xFFFD, cyc := 1, pending := [], response := .word 0x0A0A } := by decide

/-! ### V9: SET -/

theorem test_set_register :
    nextOf (step (setOf 0x00 0 0x1234)) =
      some { setOf 0x00 0 0 with x := #v[0x1234, 0x0005, 0x00AA, 0x0BAD, 0, 0, 0, 0xFFFF], pending := [] } := by decide
theorem test_set_register_negative :
    nextOf (step (setOf 0x03 0 (-1))) =
      some { setOf 0x03 0 0 with x := #v[0x2000, 0x0005, 0x00AA, 0x8001, 0, 0, 0, 0xFFFF], pending := [] } := by decide
theorem test_set_sp :
    nextOf (step (setOf 0x1B 0 0x0FFF)) = some { setOf 0x1B 0 0 with sp := 0x0FFF, pending := [] } := by decide
theorem test_set_pc :
    nextOf (step (setOf 0x1C 0 0x10000)) = some { setOf 0x1C 0 0 with pc := 0, pending := [] } := by decide
theorem test_set_ex :
    nextOf (step (setOf 0x1D 0 0x1FFFF)) = some { setOf 0x1D 0 0 with ex := 0xFFFF, pending := [] } := by decide
theorem test_set_immediate :
    nextOf (step (setOf 0x1F 0x1234 0x5555)) = some { setOf 0x1F 0x1234 0 with pending := [] } := by decide
theorem test_set_literal : nextOf (step (setOf 0x3F 0 9)) = some { setOf 0x3F 0 0 with pending := [] } := by decide

/-- The cell a SET wrote, with `sp` and `cyc` after it. -/
def lookCell (s : State) (k : Nat) : Option (Word × Word × Nat) :=
  (nextOf (step s)).map fun t => (t.mem.read k, t.sp, t.cyc)

theorem test_set_indirect_and_indexed :
    [lookCell (setOf 0x08 0 7) 0x2000, lookCell (setOf 0x0F 0 0x0BAD) 0xFFFF, lookCell (setOf 0x10 3 0xABCD) 0x2003,
      lookCell (setOf 0x11 0xFFFF 0x0666) 0x0004, lookCell (setOf 0x17 2 0x0111) 0x0001] =
    [some (0x0007, 0xFFFC, 1), some (0x0BAD, 0xFFFC, 1), some (0xABCD, 0xFFFC, 1), some (0x0666, 0xFFFC, 1),
      some (0x0111, 0xFFFC, 1)] := by decide

theorem test_set_stack :
    [lookCell { setOf 0x18 0 5 with sp := 0xFFFF } 0xFFFE, lookCell { setOf 0x18 0 6 with sp := 0 } 0xFFFF,
      lookCell { setOf 0x18 0 (-2) with sp := 0x0100 } 0x00FF, lookCell (setOf 0x19 0 9) 0xFFFC,
      lookCell (setOf 0x1A 2 0x0011) 0xFFFE, lookCell (setOf 0x1A 5 0x0022) 0x0001] =
    [some (0x0005, 0xFFFE, 1), some (0x0006, 0xFFFF, 1), some (0x8002, 0x00FF, 1), some (0x0009, 0xFFFC, 1),
      some (0x0011, 0xFFFC, 1), some (0x0022, 0xFFFC, 1)] := by decide

theorem test_set_absolute_and_folded_push :
    [lookCell (setOf 0x1E 0x2000 0x0043) 0x2000,
      lookCell (small { setOf 0x1E 0xF123 0x0043 with mem := [] }) 0x0123,
      lookCell (small { setOf 0x18 0 5 with sp := 0xFFFF, mem := [] }) 0x0FFE] =
    [some (0x0043, 0xFFFC, 1), some (0x0043, 0xFFFC, 1), some (0x0005, 0xFFFE, 1)] := by decide

/-- Writing what an unlisted cell reads as takes the entry away, so equal memories are equal lists. -/
theorem test_set_zero_keeps_the_canonical_form :
    (nextOf (step (setOf 0x09 0 0x10000))).map (fun t => t.mem.take 3) =
      some [(0x0001, 0x0E0E), (0x0004, 0x0077), (0x2000, 0x0042)] := by decide

/-! ### The classifier rows, V11 and the scenarios -/

theorem test_classifier_rows :
    (([0x0F, 0x17, 0x1A, 0x3F] : List Desc).map fun e =>
        (nextOf (step (withInputs State.reset [.descriptor e]))).map (fun t => t.response)) =
      [some (.mode (.ind 7) false), some (.mode (.idx 7) true), some (.mode .pick true),
        some (.mode (.lit 31) false)] := by decide

/-- V11 lines 3 and 4: RESET of a dirty state. -/
theorem test_reset_of_a_dirty_state :
    (nextOf (exec .reset { setOf 0x25 0 0 with ia := 8, cyc := 9, params := { v8.params with spInit := 0x0FFF } })).map
        (fun t => { t with slotB := Slot.atReset, slotA := Slot.atReset, freeCount := 0, pending := [] }) =
      some (State.resetWith { v8.params with spInit := 0x0FFF }) := by decide

/-- V11 line 4: after RESET a slot that was loaded is not. -/
theorem test_reset_unloads_the_slots :
    refusalIn (runAll (setOf 0x25 0 0) [cmd 0x00, getTransaction .b]) = some (.unloadedSlot .b) := by decide

/-- V11 lines 5 to 7. -/
theorem test_refusals :
    [refusalIn (step (withInputs State.reset [getTransaction .b])),
      refusalIn (runAll State.reset [cmd 0x00, load 0 0x00, setTransaction .a 5]),
      refusalIn (step (withInputs State.reset [cmd 0x15]))] =
    [some (.unloadedSlot .b), some (.unloadedSlot .a), some (.unassignedCommand 0x15)] := by decide

/-- S9: an immediate operand, with `MEMSIZE = 4096`. -/
theorem test_immediate_scenario :
    look (runAll (small { State.reset with mem := [(0, 0x001F), (1, 0x1234)] })
        [cmd 0x05, load 1 0x1F, getTransaction .a]) =
      some (.word 0x1234, 2, 0xFFFF, 2) := by decide

/-- S11: push then pop through encoding 0x18. -/
theorem test_push_then_pop_scenario :
    look (runAll State.reset [load 0 0x18, setTransaction .b 5, getTransaction .b]) =
      some (.word 5, 0, 0xFFFF, 2) := by decide

/-- `withFetchWord` presents the row's instruction: GET in mode IMM of slot "b", the word it holds as it was. -/
theorem test_withFetchWord :
    look (step ((setOf 0x00 0x1234 0).withFetchWord 16 0x4DF)) = some (.word 0x1234, 0x0011, 0xFFFC, 0) ∧
      look (step (State.reset.withFetchWord 16 0x140)) = some (.word 0, 1, 0xFFFF, 1) := by decide

/-! ### Witnesses: for each statement with hypotheses, a state and operands that meet them all -/

/-- A state with both slots loaded, memory written and every register in use. -/
def busy : State := { v8 with ia := 0x0200, slotB := holding 0x11 0x0002, slotA := holding 0x1F 0x1234, cyc := 41 }

/-- An instruction of every row. -/
def everyInstr : List Instr :=
  [.reset, .rdmem 0xFFFF, .wrmem 0x2000 (-1), .rdreg regJ, .wrreg regX 0x10000, .nextword, .pushslot, .popslot,
    .peekaddr, .getpc, .setpc 5, .getsp, .setsp 6, .getex, .setex 7, .getia, .setia 8, .getcyc] ++
  (modeClasses.map (loadInstr .a)) ++ (modeClasses.map (getInstr .b)) ++ (modeClasses.map (setInstr .a (-1))) ++
  (modeClasses.map encInstr)

/-- Every instruction answers a next state in `busy`: the premise `exec i s = .next t` of PcChangesInExactlyTheseWays,
SpChangesInExactlyTheseWays, CycGrowsByTheCostTable and ParametersAndCommandStreamStay in each of their clauses. -/
theorem witness_everyInstrCompletes :
    everyInstr.length = 66 ∧ everyInstr.all (fun i => (nextOf (exec i busy)).isSome) = true := by decide

theorem witness_NormalisationFollowsTheFormula :
    ((0 : Int) ≤ 0 ∧ (0 : Int) ≤ 0xFFFF ∧ (0xFFFF : Int) ≤ 0xFFFF) ∧ ¬ (0 : Int) ≤ -1 := by decide
theorem witness_WrmemStoresOneNormalisedCell :
    busy.mem.wf = true ∧ busy.pc.toNat % busy.memSize = (0x0011 : Word).toNat % busy.memSize := by decide
theorem witness_WriteThenReadReturnsTheNormalisedValue : busy.mem.wf = true := by decide
/-- Between the two reads of 0x2000: a store to another cell, a read, an indexed store and a register write. -/
theorem witness_ReadsAreIdempotent :
    let is : List Instr := [.wrmem 0x2001 7, .getIdx .b regA, .setIdx .b regB 9, .wrreg regA 0x3000]
    let t : State := { busy with cyc := 42, response := .word 0x0042 }
    busy.mem.wf = true ∧ exec (.rdmem 0x2000) busy = .next t ∧
      Claims.SparesCell (busy.cellOf 0x2000) is t ∧ (Claims.runInstrs is t).isSome = true := by
  refine ⟨by decide, rfl, ?_, by decide⟩
  refine ⟨nofun, by decide, fun t h => ?_⟩
  cases h
  refine ⟨nofun, by decide, fun t h => ?_⟩
  cases h
  refine ⟨nofun, by decide, fun t h => ?_⟩
  cases h
  exact ⟨nofun, by decide, fun t h => trivial⟩
theorem witness_ReadReturnsTheMostRecentWrite :
    let ws : List (Word × Int) := [(0x0001, -1), (0xFFFF, 7), (0x0001, 0x10002)]
    let s := withInputs busy (ws.map fun p => encode (.wrmem p.1 p.2))
    s.mem.wf = true ∧ s.pending = ws.map (fun p => encode (.wrmem p.1 p.2)) := by decide
theorem witness_AddressSumsAreSixteenBitSums :
    (0x1FFE : Word).toNat % (small busy).memSize = (0x0FFE : Word).toNat % (small busy).memSize ∧
      ((small busy).slot .b).loaded = true := by decide
theorem witness_WritingPcIsAJump :
    (Instr.setpc (-1) = .setpc (-1)) ∧
      (Instr.setPcd .b 0x10000 = .setPcd .b 0x10000 ∧ (busy.slot .b).loaded = true) := by decide

/-- The premises of GetOfRegistersAndConstants, GetOfMemoryModesReadsOneCell, GetOfStackModePops,
SetOfRegistersStoresTheNormalisedValue, SetOfMemoryModesStoresOneCell, SetOfStackModePushes,
SetOfImmediateOrLiteralIsANoOp and PopThenPushOnOneSlotRewritesTheTop, for both slots. -/
theorem witness_loadedSlots :
    (busy.slot .b).loaded = true ∧ (busy.slot .a).loaded = true ∧ busy.mem.wf = true := by decide

theorem witness_GetAndSetOnUnloadedSlotAreRefused :
    let get := withInputs State.reset [getTransaction .a]
    let set := withInputs State.reset [setTransaction .b 5]
    ((get.slot .a).loaded = false ∧ get.pending = [getTransaction .a]) ∧
      ((set.slot .b).loaded = false ∧ set.pending = [setTransaction .b 5]) := by decide
theorem witness_UnassignedCommandCodesAreRefused :
    (withInputs busy [cmd 0x15, cmd 0x1F]).pending = .command (idleTransaction 0x15) :: [cmd 0x1F] ∧
      0x15 ≤ (idleTransaction 0x15).cmd.toNat ∧ 0x15 ≤ (idleTransaction 0x1F).cmd.toNat := by decide
theorem witness_EveryAcceptedCommandHasANextState :
    (withInputs busy [cmd 0x14]).accepts (cmd 0x14) = true ∧
      refusalIn (step (withInputs busy [cmd 0x15])) = some (.unassignedCommand 0x15) ∧
      refusalIn (step (withInputs State.reset [cmd 0x14])) = some (.unloadedSlot .b) := by decide
theorem witness_ContractKeepingStreamsNeverStop :
    let s := withInputs State.reset
      [cmd 0x00, cmd 0x05, load 0 0x1E, load 1 0x18, getTransaction .a, setTransaction .b (-1), .descriptor 0x3F]
    keepsContract s.slotB.loaded s.slotA.loaded s.pending = true := by decide
theorem witness_DescriptorRangesSelectTheModes :
    ((0x00 : Desc).toNat ≤ 0x07 ∧ (0x07 : Desc).toNat ≤ 0x07) ∧
      (0x08 ≤ (0x08 : Desc).toNat ∧ (0x0F : Desc).toNat ≤ 0x0F) ∧
      (0x10 ≤ (0x10 : Desc).toNat ∧ (0x17 : Desc).toNat ≤ 0x17) ∧
      ([0x18, 0x19, 0x1A, 0x1B, 0x1C, 0x1D, 0x1E, 0x1F] : List Desc).map BitVec.toNat =
        [0x18, 0x19, 0x1A, 0x1B, 0x1C, 0x1D, 0x1E, 0x1F] ∧
      0x20 ≤ (0x20 : Desc).toNat ∧ 0x20 ≤ (0x3F : Desc).toNat := by decide
theorem witness_DecodeOfEncodeIsTheInstruction :
    ∀ sl m, (Instr.getIdx .a 3).slotMode = some (sl, m) → pickSlotEnc none (some 0x13) sl = some m.desc := by
  intro sl m h
  cases h
  decide
theorem witness_EncodeOfDecodeIsTheInput :
    (load 1 0x3F).wellFormed = true ∧ decode none none (load 1 0x3F) = .ok (.loadLit .a 31) ∧
      (getTransaction .a).wellFormed = true ∧ decode none (some 0x18) (getTransaction .a) = .ok (.getStk .a) := by
  refine ⟨by decide, rfl, by decide, rfl⟩
theorem witness_DecodedInstructionFitsItsRow :
    (decodeSelector ((0x12 : BitVec 5) ++ (0x11 : Desc)) (idleTransaction 0x12) = .ok (.loadIdx .b 1) ∧
        0x12 ≤ (0x12 : BitVec 5).toNat) ∧
      (decodeSelector ((0x14 : BitVec 5) ++ (0x3F : Desc)) (idleTransaction 0x14) = .ok (.setLit .b 31 0)) ∧
      (decodeSelector ((0x15 : BitVec 5) ++ (0x00 : Desc)) (idleTransaction 0x15) =
          .error (.unassignedCommand 0x15) ∧
        0x15 ≤ (0x15 : BitVec 5).toNat) := by
  refine ⟨⟨rfl, by decide⟩, rfl, rfl, by decide⟩
theorem witness_StepRunsTheDecodedInstruction :
    busy.pending = [] ∧ (withInputs busy [cmd 0x05]).pending = [cmd 0x05] ∧
      decode busy.slotB.enc? busy.slotA.enc? (cmd 0x05) = .ok .nextword ∧
      decode busy.slotB.enc? busy.slotA.enc? (cmd 0x15) = .error (.unassignedCommand 0x15) := by
  refine ⟨rfl, rfl, rfl, rfl⟩
theorem witness_StepOfGetAndSetTakesTheModeFromTheSlot :
    (busy.slot .a).loaded = true ∧ (withInputs busy [getTransaction .a]).pending = [getTransaction .a] ∧
      (withInputs busy [setTransaction .a 9]).pending = [setTransaction .a 9] := by decide
theorem witness_PresentedTableWordRunsNext :
    decodeTableWord 16 0x4DF = some (.getImm .b) ∧ decodeTableWord 16 0x000 = some .reset ∧
      decodeTableWord 8 0x3F = some (.encLit 31) := by decide
theorem witness_StepKeepsTheInvariant :
    let s := withInputs busy [.command { idleTransaction 0x02 with addr := 0x2000, wdata := 0x10000 }]
    s.inv = true ∧ ∃ t, step s = .next t := ⟨by decide, _, rfl⟩
theorem witness_ResetSatisfiesTheInvariant :
    paramsOk { Params.standard with memBits := 12, memInit := [(0, 0x001F), (0x0FFF, 0x1234)] } = true := by decide
theorem witness_OnlyRegisterWritesChangeRegisters :
    (∃ t, exec (.setInd .a regA 7) busy = .next t) ∧ Instr.setInd .a regA 7 ≠ .reset ∧
      (∀ r v, Instr.setInd .a regA 7 ≠ .wrreg r v) ∧ ∀ sl r v, Instr.setInd .a regA 7 ≠ .setReg sl r v :=
  ⟨⟨_, rfl⟩, nofun, nofun, nofun⟩
theorem witness_SlotsChangeOnlyByTheirOwnLoad :
    (∃ t, exec (.loadImm .a) busy = .next t) ∧ Instr.loadImm .a ≠ .reset ∧ ∀ m, Instr.loadImm .a ≠ loadInstr .b m :=
  ⟨⟨_, rfl⟩, nofun, fun m => by cases m <;> simp [loadInstr]⟩
theorem witness_ExIsPlainStorage :
    (Instr.popslot ≠ .reset ∧ Instr.popslot ≠ .getex ∧ (∀ v, Instr.popslot ≠ .setex v) ∧
        (∀ sl, Instr.popslot ≠ .getExd sl) ∧ ∀ sl v, Instr.popslot ≠ .setExd sl v) ∧
      Instr.reset = .reset ∧ (∃ v, Instr.setex 3 = .setex v) ∧ ∃ sl v, Instr.setExd .a 3 = .setExd sl v :=
  ⟨⟨nofun, nofun, nofun, nofun, nofun⟩, rfl, ⟨3, rfl⟩, .a, 3, rfl⟩
theorem witness_IaIsPlainStorage :
    (Instr.setpc 1 ≠ .reset ∧ Instr.setpc 1 ≠ .getia ∧ ∀ v, Instr.setpc 1 ≠ .setia v) ∧
      Instr.reset = .reset ∧ ∃ v, Instr.setia 3 = .setia v :=
  ⟨⟨nofun, nofun, nofun⟩, rfl, 3, rfl⟩
theorem witness_OnlyMemoryCommandsTouchMemory :
    (Claims.readsMem .pushslot = false ∧ Claims.storeCell .pushslot busy = none ∧ Instr.pushslot ≠ .reset ∧
        ∃ t, exec .pushslot busy = .next t) ∧
      Claims.readsMem (.setIdx .b regA 7) = false ∧
      (Claims.storeCell (.getStk .a) busy = none ∧ Instr.getStk .a ≠ .reset ∧
        ∃ t, exec (.getStk .a) busy = .next t) :=
  ⟨⟨rfl, rfl, nofun, _, rfl⟩, rfl, rfl, nofun, _, rfl⟩
theorem witness_OperandStateIsSampledWhenGetRuns : busy.mem.wf = true := by decide
theorem witness_StepKeepsTheResolverContract :
    let s := withInputs State.reset [load 1 0x1A, getTransaction .a, cmd 0x00, load 0 0x18, setTransaction .b 5]
    keepsContract s.slotB.loaded s.slotA.loaded s.pending = true := by decide
theorem witness_ProtocolAdvancesPcByTheInstructionLength :
    (withInputs busy [cmd 0x05, load 0 0x1E, load 1 0x1F]).pending =
      Claims.nextwordCmd :: Claims.loadCmd .b 0x1E :: Claims.loadCmd .a 0x1F :: [] := by decide
theorem witness_ExtraWordsGoToTheOperandsInLoadOrder :
    SlotId.a ≠ SlotId.b ∧
      (withInputs busy [cmd 0x05, load 1 0x1F, load 0 0x1E]).pending =
        Claims.nextwordCmd :: Claims.loadCmd .a 0x1F :: Claims.loadCmd .b 0x1E :: [] ∧
      needsExtra 0x1F = true ∧ needsExtra 0x1E = true ∧
      (withInputs busy [cmd 0x05, load 1 0x18, load 0 0x1E]).pending =
        Claims.nextwordCmd :: Claims.loadCmd .a 0x18 :: Claims.loadCmd .b 0x1E :: [] ∧
      needsExtra 0x18 = false := by decide
theorem witness_CycNeverDecreasesWithoutReset :
    let s := withInputs busy [cmd 0x05, cmd 0x1F]
    (∀ tr, .command tr ∈ s.pending → tr.cmd ≠ 0) ∧ ∃ t, Host.Core.run core 1 s = .next t := by
  refine ⟨fun tr h => ?_, _, rfl⟩
  have hc : tr = idleTransaction 0x05 ∨ tr = idleTransaction 0x1F := by simpa [withInputs, cmd] using h
  rcases hc with rfl | rfl <;> decide

end Sys2Proof.Tests
end

section
/-! PROOFS. What `exec` does to the state, said once for every instruction: which state it ends in, and that GET and
SET on an unloaded slot are its only refusals. -/

namespace Sys2Proof.Machine

/-- The state an instruction ends in when it completes, before its response is set: the shared operation it is
made of, and the state itself for the instructions that only answer. `exec_of_slotMode_none` and
`exec_of_slotMode_some` tie it to `exec`. -/
def stateAfter (i : Instr) (s : State) : State :=
  match i with
  | .reset => s.resetCore
  | .rdmem addr => (s.memRead addr.toNat).2
  | .wrmem addr v => s.memWrite addr.toNat v
  | .wrreg r v | .setReg _ r v => s.setReg r v
  | .nextword => s.nextWord.2
  | .pushslot => s.pushSlot.2
  | .popslot => s.popSlot.2
  | .setpc v | .setPcd _ v => { s with pc := norm16 v }
  | .setsp v | .setSpd _ v => { s with sp := norm16 v }
  | .setex v | .setExd _ v => { s with ex := norm16 v }
  | .setia v => { s with ia := norm16 v }
  | .loadReg sl r => s.latchPlain sl (Mode.reg r).desc
  | .loadInd sl r => s.latchPlain sl (Mode.ind r).desc
  | .loadIdx sl r => s.latchExtra sl (Mode.idx r).desc
  | .loadStk sl => s.latchPlain sl Mode.stk.desc
  | .loadPeek sl => s.latchPlain sl Mode.peek.desc
  | .loadPick sl => s.latchExtra sl Mode.pick.desc
  | .loadSpd sl => s.latchPlain sl Mode.spd.desc
  | .loadPcd sl => s.latchPlain sl Mode.pcd.desc
  | .loadExd sl => s.latchPlain sl Mode.exd.desc
  | .loadAbs sl => s.latchExtra sl Mode.abs.desc
  | .loadImm sl => s.latchExtra sl Mode.imm.desc
  | .loadLit sl n => s.latchPlain sl (Mode.lit n).desc
  | .getInd _ r => (s.memRead (s.indAddr r)).2
  | .getIdx sl r => (s.memRead (s.idxAddr r (s.slot sl).extra)).2
  | .getStk _ => s.popWord.2
  | .getPeek _ => (s.memRead s.peekAddr).2
  | .getPick sl => (s.memRead (s.pickAddr (s.slot sl).extra)).2
  | .getAbs sl => (s.memRead (absAddr (s.slot sl).extra)).2
  | .setInd _ r v => s.memWrite (s.indAddr r) v
  | .setIdx sl r v => s.memWrite (s.idxAddr r (s.slot sl).extra) v
  | .setStk _ v => s.pushWord v
  | .setPeek _ v => s.memWrite s.peekAddr v
  | .setPick sl v => s.memWrite (s.pickAddr (s.slot sl).extra) v
  | .setAbs sl v => s.memWrite (absAddr (s.slot sl).extra) v
  | _ => s

/-- An instruction that is no GET and no SET completes in every state. -/
theorem exec_of_slotMode_none {i : Instr} (h : i.slotMode = none) (s : State) :
    ∃ r, exec i s = .next ((stateAfter i s).respond r) := by
  cases i with
  | getReg | getInd | getIdx | getStk | getPeek | getPick | getSpd | getPcd | getExd | getAbs | getImm | getLit
  | setReg | setInd | setIdx | setStk | setPeek | setPick | setSpd | setPcd | setExd | setAbs | setImm | setLit =>
    cases h
  | _ => exact ⟨_, rfl⟩

/-- A GET or a SET completes behind the loaded test of the slot it addresses (R130, R150). -/
theorem exec_of_slotMode_some {i : Instr} {sl : SlotId} {m : Mode} (h : i.slotMode = some (sl, m)) (s : State) :
    ∃ r, exec i s = s.withLoaded sl fun _ => .next ((stateAfter i s).respond r) := by
  cases i with
  | getReg | getInd | getIdx | getStk | getPeek | getPick | getSpd | getPcd | getExd | getAbs | getImm | getLit
  | setReg | setInd | setIdx | setStk | setPeek | setPick | setSpd | setPcd | setExd | setAbs | setImm | setLit =>
    cases h
    exact ⟨_, rfl⟩
  | _ => cases h

/-- An instruction completes when the slot it reads the mode of, if it reads one, is loaded. -/
theorem exec_completes {i : Instr} {s : State}
    (h : ∀ sl m, i.slotMode = some (sl, m) → (s.slot sl).loaded = true) :
    ∃ r, exec i s = .next ((stateAfter i s).respond r) := by
  cases hm : i.slotMode with
  | none => exact exec_of_slotMode_none hm s
  | some p =>
    obtain ⟨r, hr⟩ := exec_of_slotMode_some hm s
    exact ⟨r, by rw [hr, withLoaded_of_loaded (h _ _ hm)]⟩

/-- The inversion of an instruction that completes. -/
theorem exec_next {i : Instr} {s t : State} (h : exec i s = .next t) :
    ∃ r, t = (stateAfter i s).respond r := by
  cases hm : i.slotMode with
  | none =>
    obtain ⟨r, hr⟩ := exec_of_slotMode_none hm s
    rw [hr] at h
    cases h
    exact ⟨r, rfl⟩
  | some p =>
    obtain ⟨r, hr⟩ := exec_of_slotMode_some hm s
    rw [hr] at h
    cases (withLoaded_next h).2
    exact ⟨r, rfl⟩

/-- The parameters (R7, R8) and the commands still to be presented are in no shared operation's reach. -/
theorem stateAfter_params_pending (i : Instr) (s : State) :
    (stateAfter i s).params = s.params ∧ (stateAfter i s).pending = s.pending := by
  cases i with
  | loadReg | loadInd | loadStk | loadPeek | loadSpd | loadPcd | loadExd | loadLit =>
    exact ⟨latchPlain_params _ _ _, latchPlain_pending _ _ _⟩
  | loadIdx | loadPick | loadAbs | loadImm => exact ⟨latchExtra_params _ _ _, latchExtra_pending _ _ _⟩
  | _ => exact ⟨rfl, rfl⟩

/-- Settles O53: whatever state an instruction ends in, its operation left the parameters and the commands alone,
and the response is a field apart. -/
theorem parametersAndCommandStreamStay : Obligations.ParametersAndCommandStreamStay := by
  intro i s t h
  obtain ⟨r, rfl⟩ := exec_next h
  exact stateAfter_params_pending i s

end Sys2Proof.Machine
end

section
/-! PROOFS. Which inputs decode: every accepted one, to an instruction whose slot is loaded, and no other. -/

namespace Sys2Proof

/-! ### The slot and the mode of the instruction a mode selects -/

@[simp] theorem slotMode_loadInstr (sl : SlotId) (m : Mode) : (loadInstr sl m).slotMode = none := by
  cases m <;> rfl

@[simp] theorem slotMode_getInstr (sl : SlotId) (m : Mode) : (getInstr sl m).slotMode = some (sl, m) := by
  cases m <;> rfl

@[simp] theorem slotMode_setInstr (sl : SlotId) (v : Int) (m : Mode) :
    (setInstr sl v m).slotMode = some (sl, m) := by
  cases m <;> rfl

@[simp] theorem slotMode_encInstr (m : Mode) : (encInstr m).slotMode = none := by
  cases m <;> rfl

/-! ### The decoder on assigned and unassigned codes -/

/-- The codes of GET and SET as numbers. -/
theorem encFromSlot_iff {t : Transaction} : t.encFromSlot = true ↔ t.cmd.toNat = 0x13 ∨ t.cmd.toNat = 0x14 := by
  simp [Transaction.encFromSlot, ← BitVec.toNat_inj]

/-- A selector with an assigned code decodes; the instruction reads the mode of a slot only for GET and SET, of
the slot on the port (R61). -/
theorem decodeSelector_of_assigned {t : Transaction} (h : t.cmd.toNat ≤ 0x14) (e : Desc) :
    ∃ i, decodeSelector (t.cmd ++ e) t = .ok i ∧
      ∀ sl m, i.slotMode = some (sl, m) → t.encFromSlot = true ∧ sl = slotOfBit t.slot := by
  simp only [decodeSelector, selector_cmd, selector_enc]
  split
  case h_19 => exact ⟨_, rfl, fun sl m hm => by simp at hm⟩
  case h_20 hc | h_21 hc =>
    refine ⟨_, rfl, fun sl m hm => ⟨encFromSlot_iff.mpr (by simp [hc]), ?_⟩⟩
    simp only [slotMode_getInstr, slotMode_setInstr, Option.some.injEq, Prod.mk.injEq] at hm
    exact hm.1.symm
  case h_22 =>
    simp only [imp_false] at *
    omega
  all_goals exact ⟨_, rfl, nofun⟩

/-- A selector with a code above 0x14 decodes to nothing (R78). -/
theorem decodeSelector_of_unassigned {t : Transaction} (h : 0x15 ≤ t.cmd.toNat) (e : Desc) :
    decodeSelector (t.cmd ++ e) t = .error (.unassignedCommand t.cmd) := by
  simp only [decodeSelector, selector_cmd, selector_enc]
  split
  case h_22 => rfl
  all_goals omega

end Sys2Proof

namespace Sys2Proof.Machine

/-! ### The decoder on an input presented in a state -/

theorem enc?_of_loaded {v : Slot} (h : v.loaded = true) : v.enc? = some v.enc := if_pos h

theorem enc?_of_not_loaded {v : Slot} (h : v.loaded = false) : v.enc? = none := by simp [Slot.enc?, h]

/-- The commands that are accepted: the code is assigned, and GET and SET find their slot loaded (R12). -/
theorem accepts_command {t : Transaction} {s : State} :
    s.accepts (.command t) = true ↔
      t.cmd.toNat ≤ 0x14 ∧ (t.encFromSlot = true → (s.slot (slotOfBit t.slot)).loaded = true) := by
  simp [State.accepts, Transaction.assigned, ← Bool.not_eq_true, ← imp_iff_not_or]

/-- A command that finds its slot loaded, if it reads one, decodes as a selector of its own code (R61). -/
theorem decodeInput_command {t : Transaction} {s : State}
    (h : t.encFromSlot = true → (s.slot (slotOfBit t.slot)).loaded = true) :
    ∃ e : Desc, s.decodeInput (.command t) = decodeSelector (t.cmd ++ e) t := by
  cases ht : t.encFromSlot with
  | false => exact ⟨t.enc, decode_of_not_encFromSlot ht _ _⟩
  | true =>
    refine ⟨(s.slot (slotOfBit t.slot)).enc, ?_⟩
    simp [State.decodeInput, decode, Transaction.selector, ht, enc?_of_loaded (h ht)]

/-- GET and SET on an unloaded slot have no mode to decode to (R201). -/
theorem decodeInput_of_unloaded {t : Transaction} {s : State} (ht : t.encFromSlot = true)
    (h : (s.slot (slotOfBit t.slot)).loaded = false) :
    s.decodeInput (.command t) = .error (.unloadedSlot (slotOfBit t.slot)) := by
  simp [State.decodeInput, decode, Transaction.selector, ht, enc?_of_not_loaded h]

/-- An accepted input decodes, to an instruction that finds its slot loaded. -/
theorem decodeInput_of_accepts {inp : Input} {s : State} (h : s.accepts inp = true) :
    ∃ i, s.decodeInput inp = .ok i ∧ ∀ sl m, i.slotMode = some (sl, m) → (s.slot sl).loaded = true := by
  cases inp with
  | descriptor e => exact ⟨_, rfl, fun sl m hm => by simp at hm⟩
  | command t =>
    obtain ⟨hcmd, hslot⟩ := accepts_command.mp h
    obtain ⟨e, he⟩ := decodeInput_command hslot
    obtain ⟨i, hi, hmode⟩ := decodeSelector_of_assigned hcmd e
    refine ⟨i, he.trans hi, fun sl m hm => ?_⟩
    obtain ⟨ht, rfl⟩ := hmode sl m hm
    exact hslot ht

/-- An input that is not accepted does not decode, for one of the two reasons of R200 and R201. -/
theorem decodeInput_of_not_accepts {inp : Input} {s : State} (h : s.accepts inp = false) :
    ∃ e, s.decodeInput inp = .error e ∧ ∃ t, inp = .command t ∧
      ((0x15 ≤ t.cmd.toNat ∧ refusalOf e = .unassignedCommand t.cmd) ∨
        (t.encFromSlot = true ∧ (s.slot (slotOfBit t.slot)).loaded = false ∧
          refusalOf e = .unloadedSlot (slotOfBit t.slot))) := by
  cases inp with
  | descriptor e => cases h
  | command t =>
    by_cases hslot : t.encFromSlot = true → (s.slot (slotOfBit t.slot)).loaded = true
    · have hcmd : ¬ t.cmd.toNat ≤ 0x14 := fun hle => by simp [accepts_command.mpr ⟨hle, hslot⟩] at h
      obtain ⟨e, he⟩ := decodeInput_command hslot
      rw [decodeSelector_of_unassigned (by omega)] at he
      exact ⟨_, he, t, rfl, .inl ⟨by omega, rfl⟩⟩
    · obtain ⟨ht, hl⟩ := Classical.not_imp.mp hslot
      have hl := Bool.eq_false_of_not_eq_true hl
      exact ⟨_, decodeInput_of_unloaded ht hl, t, rfl, .inr ⟨ht, hl, rfl⟩⟩

end Sys2Proof.Machine
end

section
/-! PROOFS. What one step does with the input presented. -/

namespace Sys2Proof.Machine

/-- A step on an accepted input completes (R12). -/
theorem step_of_accepts {inp : Input} {rest : List Input} {s : State} (hp : s.pending = inp :: rest)
    (h : s.accepts inp = true) : ∃ t, step s = .next t := by
  obtain ⟨i, hi, hslot⟩ := decodeInput_of_accepts h
  have hslot' : ∀ sl m, i.slotMode = some (sl, m) → (({ s with pending := rest } : State).slot sl).loaded = true :=
    fun sl m hm => by cases sl <;> exact hslot _ m hm
  obtain ⟨r, hr⟩ := exec_completes hslot'
  exact ⟨_, by rw [step_cons hp, hi]; exact hr⟩

/-- A step on an input that is not accepted is refused, for one of the two reasons of R200 and R201. -/
theorem step_of_not_accepts {inp : Input} {rest : List Input} {s : State} (hp : s.pending = inp :: rest)
    (h : s.accepts inp = false) :
    ∃ r, step s = .refused r ∧ ∃ t, inp = .command t ∧
      ((0x15 ≤ t.cmd.toNat ∧ r = .unassignedCommand t.cmd) ∨
        (t.encFromSlot = true ∧ (s.slot (slotOfBit t.slot)).loaded = false ∧
          r = .unloadedSlot (slotOfBit t.slot))) := by
  obtain ⟨e, he, hreason⟩ := decodeInput_of_not_accepts h
  exact ⟨refusalOf e, by rw [step_cons hp, he], hreason⟩

/-- Settles O40, by the equation of a step with an input pending. -/
theorem stepRunsTheDecodedInstruction : Obligations.StepRunsTheDecodedInstruction := by
  intro s
  refine ⟨step_idle, fun inp rest hp => ⟨fun i hi => ?_, fun e he => ?_⟩⟩
  · rw [step_cons hp, State.decodeInput, hi]
  · rw [step_cons hp, State.decodeInput, he]

/-- Settles O29, by the two cases of an input: an accepted one completes, any other is refused for its reason. -/
theorem everyAcceptedCommandHasANextState : Obligations.EveryAcceptedCommandHasANextState := by
  intro inp rest s hp
  cases hacc : s.accepts inp with
  | true =>
    obtain ⟨t, ht⟩ := step_of_accepts hp hacc
    rw [ht]
    exact ⟨⟨fun _ => rfl, fun _ => ⟨t, rfl⟩⟩, nofun⟩
  | false =>
    obtain ⟨r, hr, hreason⟩ := step_of_not_accepts hp hacc
    rw [hr]
    refine ⟨⟨nofun, nofun⟩, fun r' h => ?_⟩
    cases h
    exact hreason

end Sys2Proof.Machine
end

section
/-! PROOFS. The invariant (10_state.md R30, R31): what an instruction can leave in a slot and in memory, and that each
of these keeps the invariant. -/

namespace Sys2Proof.Machine

/-! ### The slots -/

@[simp] theorem takesExtra_reg (r : RegIdx) : (Mode.reg r).takesExtra = false := by revert r; decide
@[simp] theorem takesExtra_ind (r : RegIdx) : (Mode.ind r).takesExtra = false := by revert r; decide
@[simp] theorem takesExtra_idx (r : RegIdx) : (Mode.idx r).takesExtra = true := by revert r; decide
@[simp] theorem takesExtra_lit (n : BitVec 5) : (Mode.lit n).takesExtra = false := by revert n; decide

/-- LOAD latches with or without an extra word, as its mode says (R110). -/
theorem stateAfter_loadInstr (sl : SlotId) (m : Mode) (s : State) :
    stateAfter (loadInstr sl m) s = if m.takesExtra then s.latchExtra sl m.desc else s.latchPlain sl m.desc := by
  cases m with
  | reg | ind | idx | lit =>
    simp only [takesExtra_reg, takesExtra_ind, takesExtra_idx, takesExtra_lit]
    rfl
  | stk | peek | pick | spd | pcd | exd | abs | imm => rfl

/-- LOAD leaves its descriptor in the slot it addresses, marked as the mode says; the other slot stays (R110). -/
theorem stateAfter_loadInstr_slot (sl i : SlotId) (m : Mode) (s : State) :
    ∃ w, (stateAfter (loadInstr sl m) s).slot i =
      if i = sl then { loaded := true, enc := m.desc, hasExtra := m.takesExtra, extra := w } else s.slot i := by
  rw [stateAfter_loadInstr]
  cases hm : m.takesExtra with
  | true => exact ⟨_, latchExtra_slot s sl i m.desc⟩
  | false => exact ⟨_, latchPlain_slot s sl i m.desc⟩

/-- RESET unloads both slots (R210). -/
theorem resetCore_slot_loaded (s : State) (sl : SlotId) : (s.resetCore.slot sl).loaded = false := by
  cases sl <;> rfl

/-- An instruction that is no LOAD and not RESET leaves both slots (R130, R150). -/
theorem stateAfter_slot_of_not_load {i : Instr} (hreset : i ≠ .reset) (hload : ∀ sl m, i ≠ loadInstr sl m)
    (s : State) (sl : SlotId) : (stateAfter i s).slot sl = s.slot sl := by
  cases i with
  | reset => exact absurd rfl hreset
  | loadReg l r => exact absurd rfl (hload l (.reg r))
  | loadInd l r => exact absurd rfl (hload l (.ind r))
  | loadIdx l r => exact absurd rfl (hload l (.idx r))
  | loadStk l => exact absurd rfl (hload l .stk)
  | loadPeek l => exact absurd rfl (hload l .peek)
  | loadPick l => exact absurd rfl (hload l .pick)
  | loadSpd l => exact absurd rfl (hload l .spd)
  | loadPcd l => exact absurd rfl (hload l .pcd)
  | loadExd l => exact absurd rfl (hload l .exd)
  | loadAbs l => exact absurd rfl (hload l .abs)
  | loadImm l => exact absurd rfl (hload l .imm)
  | loadLit l n => exact absurd rfl (hload l (.lit n))
  | _ => cases sl <;> rfl

/-- What can happen to a slot: it stays, RESET unloads it, or a LOAD of it latches a descriptor. -/
theorem stateAfter_slot_cases (i : Instr) (s : State) (sl : SlotId) :
    (stateAfter i s).slot sl = s.slot sl ∨
      (i = .reset ∧ ((stateAfter i s).slot sl).loaded = false) ∨
      ∃ m w, i = loadInstr sl m ∧
        (stateAfter i s).slot sl = { loaded := true, enc := m.desc, hasExtra := m.takesExtra, extra := w } := by
  by_cases hreset : i = .reset
  · subst hreset
    exact .inr (.inl ⟨rfl, resetCore_slot_loaded s sl⟩)
  by_cases hload : ∃ sl' m, i = loadInstr sl' m
  · obtain ⟨sl', m, rfl⟩ := hload
    obtain ⟨w, hw⟩ := stateAfter_loadInstr_slot sl' sl m s
    by_cases hsl : sl = sl'
    · subst hsl
      exact .inr (.inr ⟨m, w, rfl, hw.trans (if_pos rfl)⟩)
    · exact .inl (hw.trans (if_neg hsl))
  · exact .inl (stateAfter_slot_of_not_load hreset (fun sl' m h => hload ⟨sl', m, h⟩) s sl)

/-- Settles O49: of the three things that can happen to a slot, RESET and a LOAD of it are excluded. -/
theorem slotsChangeOnlyByTheirOwnLoad : Obligations.SlotsChangeOnlyByTheirOwnLoad := by
  intro i sl s t h hreset hload
  obtain ⟨r, rfl⟩ := exec_next h
  rw [respond_slot]
  rcases stateAfter_slot_cases i s sl with hsame | ⟨rfl, -⟩ | ⟨m, w, rfl, -⟩
  · exact hsame
  · exact absurd rfl hreset
  · exact absurd rfl (hload m)

/-! ### Memory -/

/-- What can happen to memory: it stays, RESET gives it `MEM_INIT`, or one cell is stored to (R41). -/
theorem stateAfter_mem_cases (i : Instr) (s : State) :
    (stateAfter i s).mem = s.mem ∨ (stateAfter i s).mem = s.params.memInit ∨
      ∃ addr v, (stateAfter i s).mem = (s.memWrite addr v).mem := by
  cases i with
  | reset => exact .inr (.inl rfl)
  | wrmem | setInd | setIdx | setStk | setPeek | setPick | setAbs => exact .inr (.inr ⟨_, _, rfl⟩)
  | loadReg | loadInd | loadStk | loadPeek | loadSpd | loadPcd | loadExd | loadLit =>
    exact .inl (latchPlain_mem _ _ _)
  | loadIdx | loadPick | loadAbs | loadImm => exact .inl (latchExtra_mem _ _ _)
  | _ => exact .inl rfl

/-! ### The invariant -/

theorem consistent_of_not_loaded {v : Slot} (h : v.loaded = false) : v.consistent = true := by
  simp [Slot.consistent, h]

theorem consistent_of_hasExtra {v : Slot} (h : v.hasExtra = needsExtra v.enc) : v.consistent = true := by
  simp [Slot.consistent, h]

/-- `MEM_INIT` is a memory of the machine (R8). -/
theorem paramsOk_iff {p : Params} : paramsOk p = true ↔ p.memInit.wf = true ∧ p.memInit.inside p.memSize = true := by
  simp [paramsOk]

/-- The parts of the invariant, the two slots taken together. -/
theorem inv_iff {s : State} :
    s.inv = true ↔ s.mem.wf = true ∧ s.mem.inside s.memSize = true ∧ paramsOk s.params = true ∧
      ∀ sl, (s.slot sl).consistent = true := by
  have hslots : (∀ sl, (s.slot sl).consistent = true) ↔ s.slotB.consistent = true ∧ s.slotA.consistent = true :=
    ⟨fun h => ⟨h .b, h .a⟩, fun ⟨hb, ha⟩ sl => by cases sl <;> assumption⟩
  simp only [State.inv, Bool.and_eq_true, and_assoc, hslots]

/-- Memory stays canonical and inside the array (R30). -/
theorem stateAfter_mem_ok {s : State} (hwf : s.mem.wf = true) (hin : s.mem.inside s.memSize = true)
    (hp : paramsOk s.params = true) (i : Instr) :
    (stateAfter i s).mem.wf = true ∧ (stateAfter i s).mem.inside s.memSize = true := by
  rcases stateAfter_mem_cases i s with h | h | ⟨addr, v, h⟩ <;> rw [h]
  · exact ⟨hwf, hin⟩
  · exact paramsOk_iff.mp hp
  · exact ⟨wf_memWrite hwf addr v, inside_memWrite hin addr v⟩

/-- A slot stays consistent: what a LOAD latches is marked by the mode of its descriptor (R31, R110). -/
theorem stateAfter_slot_consistent {s : State} {sl : SlotId} (hs : (s.slot sl).consistent = true) (i : Instr) :
    ((stateAfter i s).slot sl).consistent = true := by
  rcases stateAfter_slot_cases i s sl with h | ⟨-, h⟩ | ⟨m, w, -, h⟩
  · rwa [h]
  · exact consistent_of_not_loaded h
  · rw [h]
    exact consistent_of_hasExtra rfl

/-- Every instruction keeps the invariant. -/
theorem stateAfter_inv {s : State} (h : s.inv = true) (i : Instr) : (stateAfter i s).inv = true := by
  obtain ⟨hwf, hin, hp, hslot⟩ := inv_iff.mp h
  obtain ⟨hparams, -⟩ := stateAfter_params_pending i s
  obtain ⟨hwf', hin'⟩ := stateAfter_mem_ok hwf hin hp i
  rw [inv_iff, memSize_eq_of_params hparams, hparams]
  exact ⟨hwf', hin', hp, fun sl => stateAfter_slot_consistent (hslot sl) i⟩

/-- Settles O43: the idle step changes nothing, and any other runs an instruction, which keeps the invariant; the
invariant speaks neither of the commands pending nor of the response. -/
theorem stepKeepsTheInvariant : Obligations.StepKeepsTheInvariant := by
  intro s t hs h
  rcases step_next h with ⟨-, rfl⟩ | ⟨inp, rest, i, -, -, hexec⟩
  · exact hs
  · obtain ⟨r, rfl⟩ := exec_next hexec
    have hrest : ({ s with pending := rest } : State).inv = true := hs
    exact stateAfter_inv hrest i

/-- Settles O44: memory starts as `MEM_INIT`, and an unloaded slot is consistent. -/
theorem resetSatisfiesTheInvariant : Obligations.ResetSatisfiesTheInvariant := by
  have hreset : ∀ p : Params, paramsOk p = true → (State.resetWith p).inv = true := by
    intro p hp
    obtain ⟨hwf, hin⟩ := paramsOk_iff.mp hp
    exact inv_iff.mpr ⟨hwf, hin, hp, fun sl => consistent_of_not_loaded (by cases sl <;> rfl)⟩
  exact ⟨hreset Params.standard (by decide), hreset⟩

end Sys2Proof.Machine
end

section
/-! PROOFS. The registers, `pc`, `sp` and `cyc`: what each instruction does to them (10_state.md R21, R24, R26, R29). -/

namespace Sys2Proof.Machine

/-- Settles O45: the increments are those of NEXTWORD, and no operation but the fetch, a jump and RESET names `pc`. -/
theorem pcChangesInExactlyTheseWays : Obligations.PcChangesInExactlyTheseWays := by
  intro i s t h
  obtain ⟨r, rfl⟩ := exec_next h
  rw [respond_pc]
  cases i with
  | nextword => exact incr_ofNat s.pc
  | loadIdx | loadPick | loadAbs | loadImm => exact (latchExtra_pc _ _ _).trans (incr_ofNat s.pc)
  | loadReg | loadInd | loadStk | loadPeek | loadSpd | loadPcd | loadExd | loadLit => exact latchPlain_pc _ _ _
  | _ => rfl

/-- Settles O46: the push and the pop move `sp`, with or without their memory access; LOAD does not name it. -/
theorem spChangesInExactlyTheseWays : Obligations.SpChangesInExactlyTheseWays := by
  intro i s t h
  obtain ⟨r, rfl⟩ := exec_next h
  rw [respond_sp]
  cases i with
  | pushslot | setStk => exact decr_ofNat s.sp
  | popslot | getStk => exact incr_ofNat s.sp
  | loadIdx | loadPick | loadAbs | loadImm => exact latchExtra_sp _ _ _
  | loadReg | loadInd | loadStk | loadPeek | loadSpd | loadPcd | loadExd | loadLit => exact latchPlain_sp _ _ _
  | _ => rfl

/-- The register file is written by WRREG, SET in mode REG and RESET alone (R21). -/
theorem stateAfter_x {i : Instr} (hreset : i ≠ .reset) (hwrreg : ∀ r v, i ≠ .wrreg r v)
    (hset : ∀ sl r v, i ≠ .setReg sl r v) (s : State) : (stateAfter i s).x = s.x := by
  cases i with
  | reset => exact absurd rfl hreset
  | wrreg r v => exact absurd rfl (hwrreg r v)
  | setReg sl r v => exact absurd rfl (hset sl r v)
  | loadIdx | loadPick | loadAbs | loadImm => exact latchExtra_x _ _ _
  | loadReg | loadInd | loadStk | loadPeek | loadSpd | loadPcd | loadExd | loadLit => exact latchPlain_x _ _ _
  | _ => rfl

theorem reg_eq_of_x {s t : State} (h : t.x = s.x) (r : RegIdx) : t.reg r = s.reg r := by
  simp only [State.reg, h]

/-- Settles O48: the whole register file stays, so each register does. -/
theorem onlyRegisterWritesChangeRegisters : Obligations.OnlyRegisterWritesChangeRegisters := by
  intro i s t h hreset hwrreg hset j
  obtain ⟨r, rfl⟩ := exec_next h
  exact reg_eq_of_x (stateAfter_x hreset hwrreg hset s) j

/-- An instruction other than RESET adds its cost to `cyc` (R221). -/
theorem stateAfter_cyc {i : Instr} (hreset : i ≠ .reset) (s : State) :
    (stateAfter i s).cyc = s.cyc + cycCost i := by
  cases i with
  | reset => exact absurd rfl hreset
  | loadIdx | loadPick | loadAbs | loadImm => exact latchExtra_cyc _ _ _
  | loadReg | loadInd | loadStk | loadPeek | loadSpd | loadPcd | loadExd | loadLit => exact latchPlain_cyc _ _ _
  | _ => rfl

end Sys2Proof.Machine
end

section
/-! PROOFS. Runs in which no RESET is presented: only the code 0 decodes to RESET, so `cyc` never falls. -/

namespace Sys2Proof

theorem loadInstr_ne_reset (sl : SlotId) (m : Mode) : loadInstr sl m ≠ .reset := by cases m <;> nofun
theorem getInstr_ne_reset (sl : SlotId) (m : Mode) : getInstr sl m ≠ .reset := by cases m <;> nofun
theorem setInstr_ne_reset (sl : SlotId) (v : Int) (m : Mode) : setInstr sl v m ≠ .reset := by cases m <;> nofun
theorem encInstr_ne_reset (m : Mode) : encInstr m ≠ .reset := by cases m <;> nofun

/-- RESET has the code 0 and no other (R61). -/
theorem cmd_of_decodeSelector_reset {c : BitVec 5} {e : Desc} {t : Transaction}
    (h : decodeSelector (c ++ e) t = .ok .reset) : c = 0 := by
  simp only [decodeSelector, selector_cmd, selector_enc] at h
  split at h
  case h_1 hc => exact BitVec.eq_of_toNat_eq hc
  case h_19 => exact absurd (Except.ok.inj h) (loadInstr_ne_reset _ _)
  case h_20 => exact absurd (Except.ok.inj h) (getInstr_ne_reset _ _)
  case h_21 => exact absurd (Except.ok.inj h) (setInstr_ne_reset _ _ _)
  all_goals cases h

end Sys2Proof

namespace Sys2Proof.Machine

/-- A command that decodes does so as a selector of its own code (R61). -/
theorem decodeInput_command_ok {t : Transaction} {s : State} {i : Instr}
    (h : s.decodeInput (.command t) = .ok i) : ∃ e : Desc, decodeSelector (t.cmd ++ e) t = .ok i := by
  by_cases hslot : t.encFromSlot = true → (s.slot (slotOfBit t.slot)).loaded = true
  · obtain ⟨e, he⟩ := decodeInput_command hslot
    exact ⟨e, he.symm.trans h⟩
  · obtain ⟨ht, hl⟩ := Classical.not_imp.mp hslot
    rw [decodeInput_of_unloaded ht (Bool.eq_false_of_not_eq_true hl)] at h
    cases h

/-- Only a transaction of code 0 decodes to RESET. -/
theorem decodeInput_ne_reset {inp : Input} {s : State} {i : Instr} (h : s.decodeInput inp = .ok i)
    (hinp : ∀ tr, inp = .command tr → tr.cmd ≠ 0) : i ≠ .reset := by
  rintro rfl
  cases inp with
  | descriptor e => exact encInstr_ne_reset _ (Except.ok.inj h)
  | command tr =>
    obtain ⟨e, he⟩ := decodeInput_command_ok h
    exact hinp tr rfl (cmd_of_decodeSelector_reset he)

/-- A step takes the first pending input and leaves the others (R9). -/
theorem step_pending {s t : State} (h : step s = .next t) : t.pending = s.pending.tail := by
  rcases step_next h with ⟨hp, rfl⟩ | ⟨inp, rest, i, hp, -, hexec⟩
  · rw [hp]
    rfl
  · rw [hp]
    exact (parametersAndCommandStreamStay i _ t hexec).2

/-- A step on any input but RESET does not lower `cyc`. -/
theorem step_cyc_le {s t : State} (hp : ∀ tr, .command tr ∈ s.pending → tr.cmd ≠ 0) (h : step s = .next t) :
    s.cyc ≤ t.cyc := by
  rcases step_next h with ⟨-, rfl⟩ | ⟨inp, rest, i, hpend, hdec, hexec⟩
  · exact Nat.le_refl _
  · have hreset : i ≠ .reset := decodeInput_ne_reset hdec fun tr htr => hp tr (by simp [hpend, htr])
    obtain ⟨r, rfl⟩ := exec_next hexec
    rw [respond_cyc, stateAfter_cyc hreset]
    exact Nat.le_add_right _ _

/-- The inversion of a run that goes on: its first step completes, and the rest runs from there. -/
theorem run_succ_next {k : Nat} {s t : State} (h : Host.Core.run core (k + 1) s = .next t) :
    ∃ s', step s = .next s' ∧ Host.Core.run core k s' = .next t := by
  cases hs : step s with
  | next s' => exact ⟨s', rfl, (run_succ hs).symm.trans h⟩
  | fault r => cases r
  | refused r =>
    have hc : core.step s = .refused r := hs
    simp only [Host.Core.run] at h
    rw [hc] at h
    cases h

/-- Settles O58, by induction on the number of steps: no step lowers `cyc`, and the commands after it are among
those before it. -/
theorem cycNeverDecreasesWithoutReset : Obligations.CycNeverDecreasesWithoutReset := by
  intro k
  induction k with
  | zero =>
    intro s t _ h
    cases h
    exact Nat.le_refl _
  | succ k ih =>
    intro s t hp h
    obtain ⟨s', hs, hrun⟩ := run_succ_next h
    have hp' : ∀ tr, .command tr ∈ s'.pending → tr.cmd ≠ 0 := fun tr hmem =>
      hp tr (List.mem_of_mem_tail (step_pending hs ▸ hmem))
    exact (step_cyc_le hp hs).trans (ih s' t hp' hrun)

end Sys2Proof.Machine
end

section
/-! PROOFS. `ex` and `ia` as plain storage (10_state.md R27, R28): what they hold passes through every instruction that
does not name them. -/

namespace Sys2Proof.Machine

/-- `s` with what `ex` and `ia` hold replaced by functions of it: the constant one forgets what a register held, and
the identity leaves it. -/
def State.mapStorage (e a : Word → Word) (s : State) : State := { s with ex := e s.ex, ia := a s.ia }

@[simp] theorem mapStorage_slot (e a : Word → Word) (s : State) (sl : SlotId) :
    (s.mapStorage e a).slot sl = s.slot sl := by cases sl <;> rfl

/-- The instruction is none of those that read or write `ex` (R27), RESET apart. -/
structure SparesEx (i : Instr) : Prop where
  getex : i ≠ .getex
  setex : ∀ v, i ≠ .setex v
  getExd : ∀ sl, i ≠ .getExd sl
  setExd : ∀ sl v, i ≠ .setExd sl v

/-- The instruction is none of those that read or write `ia` (R28), RESET apart. -/
structure SparesIa (i : Instr) : Prop where
  getia : i ≠ .getia
  setia : ∀ v, i ≠ .setia v

/-- GET and SET look only at the slot they address before they go on. -/
theorem withLoaded_congr {s s' : State} {sl : SlotId} (h : s'.slot sl = s.slot sl)
    {k k' : Slot → Host.Outcome State Fault Refusal} (hk : k' (s.slot sl) = k (s.slot sl)) :
    s'.withLoaded sl k' = s.withLoaded sl k := by
  simp only [State.withLoaded, h, hk]

/-- A change of the next state passes the loaded test. -/
theorem mapNext_withLoaded (f : State → State) (s : State) (sl : SlotId)
    (k : Slot → Host.Outcome State Fault Refusal) :
    Claims.mapNext f (s.withLoaded sl k) = s.withLoaded sl fun v => Claims.mapNext f (k v) := by
  cases h : (s.slot sl).loaded with
  | true => rw [withLoaded_of_loaded h, withLoaded_of_loaded h]
  | false => rw [withLoaded_of_not_loaded h, withLoaded_of_not_loaded h]; rfl

/-- GET or SET after a change of `ex` and `ia` is that change after GET or SET, if what follows the loaded test
commutes with it. -/
theorem withLoaded_mapStorage {e a : Word → Word} {s : State} {sl : SlotId}
    {k k' : Slot → Host.Outcome State Fault Refusal}
    (hk : k' (s.slot sl) = Claims.mapNext (State.mapStorage e a) (k (s.slot sl))) :
    (s.mapStorage e a).withLoaded sl k' = Claims.mapNext (State.mapStorage e a) (s.withLoaded sl k) :=
  (withLoaded_congr (mapStorage_slot e a s sl) hk).trans (mapNext_withLoaded _ _ _ _).symm

/-- An instruction commutes with a change of `ex` and `ia` if it spares the register that changes. -/
theorem exec_mapStorage {i : Instr} {e a : Word → Word} (hreset : i ≠ .reset) (hex : e = id ∨ SparesEx i)
    (hia : a = id ∨ SparesIa i) (s : State) :
    exec i (s.mapStorage e a) = Claims.mapNext (State.mapStorage e a) (exec i s) := by
  cases i with
  | reset => exact absurd rfl hreset
  | getex =>
    rcases hex with rfl | h
    · rfl
    · exact absurd rfl h.getex
  | setex v =>
    rcases hex with rfl | h
    · rfl
    · exact absurd rfl (h.setex v)
  | getExd sl =>
    rcases hex with rfl | h
    · rw [exec_getExd, exec_getExd]
      exact withLoaded_mapStorage rfl
    · exact absurd rfl (h.getExd sl)
  | setExd sl v =>
    rcases hex with rfl | h
    · rw [exec_setExd, exec_setExd]
      exact withLoaded_mapStorage rfl
    · exact absurd rfl (h.setExd sl v)
  | getia =>
    rcases hia with rfl | h
    · rfl
    · exact absurd rfl h.getia
  | setia v =>
    rcases hia with rfl | h
    · rfl
    · exact absurd rfl (h.setia v)
  | loadReg sl | loadInd sl | loadIdx sl | loadStk sl | loadPeek sl | loadPick sl | loadSpd sl | loadPcd sl
  | loadExd sl | loadAbs sl | loadImm sl | loadLit sl => cases sl <;> rfl
  | getReg | getInd | getIdx | getStk | getPeek | getPick | getSpd | getPcd | getAbs | getImm | getLit
  | setReg | setInd | setIdx | setStk | setPeek | setPick | setSpd | setPcd | setAbs | setImm | setLit =>
    simp only [exec_getReg, exec_getInd, exec_getIdx, exec_getStk, exec_getPeek, exec_getPick, exec_getSpd,
      exec_getPcd, exec_getAbs, exec_getImm, exec_getLit, exec_setReg, exec_setInd, exec_setIdx, exec_setStk,
      exec_setPeek, exec_setPick, exec_setSpd, exec_setPcd, exec_setAbs, exec_setImm, exec_setLit]
    exact withLoaded_mapStorage rfl
  | _ => rfl

/-- Settles O50: an instruction that spares `ex` commutes with any change of it; those that write it overwrite it. -/
theorem exIsPlainStorage : Obligations.ExIsPlainStorage := by
  intro i w s
  refine ⟨fun hreset hgetex hsetex hgetExd hsetExd => ?_, ?_⟩
  · exact exec_mapStorage (e := fun _ => w) (a := id) hreset (.inr ⟨hgetex, hsetex, hgetExd, hsetExd⟩) (.inl rfl) s
  · rintro (rfl | ⟨v, rfl⟩ | ⟨sl, v, rfl⟩)
    · rfl
    · rfl
    · rw [exec_setExd, exec_setExd]
      exact withLoaded_congr (mapStorage_slot (fun _ => w) id s sl) rfl

/-- Settles O51: an instruction that spares `ia` commutes with any change of it; those that write it overwrite it. -/
theorem iaIsPlainStorage : Obligations.IaIsPlainStorage := by
  intro i w s
  refine ⟨fun hreset hgetia hsetia => ?_, ?_⟩
  · exact exec_mapStorage (e := id) (a := fun _ => w) hreset (.inl rfl) (.inr ⟨hgetia, hsetia⟩) s
  · rintro (rfl | ⟨v, rfl⟩)
    · rfl
    · rfl

end Sys2Proof.Machine
end

section
/-! PROOFS. The state after reset (10_state.md R35), and the latched extra word as a copy (R34). -/

namespace Sys2Proof.Machine

theorem reset_reg (r : RegIdx) : State.reset.reg r = 0 := by revert r; decide

/-- Settles O32: the reset column, field by field; no cell is listed and neither slot is loaded. -/
theorem resetStateHoldsTheResetColumn : Obligations.ResetStateHoldsTheResetColumn := by
  have hslot : ∀ sl, (State.reset.slot sl).loaded = false := fun sl => by cases sl <;> rfl
  have hmem : ∀ k, State.reset.mem.read k = 0 := fun _ => rfl
  exact ⟨reset_reg, rfl, rfl, rfl, rfl, rfl, hmem, hslot, rfl, rfl⟩

@[simp] theorem memWrite_slot (s : State) (addr : Nat) (v : Int) (sl : SlotId) :
    (s.memWrite addr v).slot sl = s.slot sl := by cases sl <;> rfl

/-- GET in mode IMM on a loaded slot returns its latched word and changes nothing (R141). -/
theorem exec_getImm_of_loaded {s : State} {sl : SlotId} (h : (s.slot sl).loaded = true) :
    exec (.getImm sl) s = .next (s.respond (.word (s.slot sl).extra)) := by
  rw [exec_getImm, withLoaded_of_loaded h, answerWord]

/-- Settles O56: LOAD leaves the fetched word in the slot, a store leaves the slot, and GET answers from the slot. -/
theorem latchedWordIsACopy : Obligations.LatchedWordIsACopy := by
  intro sl addr v s
  have hslot : ((((s.latchExtra sl Mode.imm.desc).respond .none).memWrite addr.toNat v).respond .none).slot sl =
      { loaded := true, enc := Mode.imm.desc, hasExtra := true, extra := s.nextWord.1 } := by
    simp [latchExtra_slot]
  refine ⟨_, _, _, rfl, rfl, exec_getImm_of_loaded (by rw [hslot]), ?_⟩
  rw [respond_response, hslot, nextWord_word, State.cellOf]

end Sys2Proof.Machine
end

section
/-! PROOFS. Memory (20_memory.md R41, R42, R47, R49): which cell an instruction stores to, that reads see the last
store, and that what memory holds passes through every instruction that does not read it. -/

namespace Sys2Proof.Machine

/-! ### What an instruction does to one cell -/

/-- An instruction that neither stores nor is RESET leaves memory as it was (R41). -/
theorem stateAfter_mem_of_not_store {i : Instr} {s : State} (hreset : i ≠ .reset)
    (h : Claims.storeCell i s = none) : (stateAfter i s).mem = s.mem := by
  cases i with
  | reset => exact absurd rfl hreset
  | wrmem | setInd | setIdx | setStk | setPeek | setPick | setAbs => cases h
  | loadReg | loadInd | loadStk | loadPeek | loadSpd | loadPcd | loadExd | loadLit => exact latchPlain_mem _ _ _
  | loadIdx | loadPick | loadAbs | loadImm => exact latchExtra_mem _ _ _
  | _ => rfl

/-- An instruction that stores writes one word, to the cell `storeCell` names. -/
theorem stateAfter_mem_of_store {i : Instr} {s : State} {k : Nat} (h : Claims.storeCell i s = some k) :
    ∃ w, (stateAfter i s).mem = s.mem.write k w := by
  cases i with
  | wrmem | setInd | setIdx | setStk | setPeek | setPick | setAbs =>
    cases h
    exact ⟨_, rfl⟩
  | _ => cases h

/-- An instruction other than RESET that does not store to a cell leaves the word there, and memory stays canonical. -/
theorem stateAfter_read_of_spared {i : Instr} {s : State} {k : Nat} (hwf : s.mem.wf = true) (hreset : i ≠ .reset)
    (h : Claims.storeCell i s ≠ some k) :
    (stateAfter i s).mem.wf = true ∧ (stateAfter i s).mem.read k = s.mem.read k := by
  cases hc : Claims.storeCell i s with
  | none =>
    rw [stateAfter_mem_of_not_store hreset hc]
    exact ⟨hwf, rfl⟩
  | some j =>
    obtain ⟨w, hw⟩ := stateAfter_mem_of_store hc
    have hkj : k ≠ j := by
      rintro rfl
      exact h hc
    rw [hw]
    exact ⟨Memory.wf_write hwf j w, (Memory.read_write hwf j w k).trans (if_neg hkj)⟩

/-! ### Reads with no store to their cell between (R47) -/

/-- The inversion of a list of instructions that runs to its end. -/
theorem runInstrs_cons {i : Instr} {is : List Instr} {s u : State} (h : Claims.runInstrs (i :: is) s = some u) :
    ∃ t, exec i s = .next t ∧ Claims.runInstrs is t = some u := by
  unfold Claims.runInstrs at h
  split at h
  · exact ⟨_, ‹_›, h⟩
  · cases h
  · cases h

/-- Instructions that spare a cell leave the word there, and the parameters. -/
theorem read_of_sparesCell {k : Nat} {is : List Instr} :
    ∀ {s u : State}, s.mem.wf = true → Claims.SparesCell k is s → Claims.runInstrs is s = some u →
      u.mem.read k = s.mem.read k ∧ u.params = s.params := by
  induction is with
  | nil =>
    intro s u _ _ hrun
    cases hrun
    exact ⟨rfl, rfl⟩
  | cons i is ih =>
    intro s u hwf ⟨hreset, hcell, hrest⟩ hrun
    obtain ⟨t, hexec, hrun'⟩ := runInstrs_cons hrun
    have hspares := hrest t hexec
    obtain ⟨r, rfl⟩ := exec_next hexec
    obtain ⟨hwf', hread⟩ := stateAfter_read_of_spared hwf hreset hcell
    obtain ⟨hread', hparams'⟩ := ih (s := (stateAfter i s).respond r) hwf' hspares hrun'
    exact ⟨hread'.trans hread, hparams'.trans (stateAfter_params_pending i s).1⟩

theorem cellOf_eq_of_params {s t : State} (h : t.params = s.params) (k : Nat) : t.cellOf k = s.cellOf k :=
  congrArg (k % ·) (memSize_eq_of_params h)

/-- RDMEM completes with the word of the cell its address reaches (R81). -/
theorem exec_rdmem_next (addr : Word) (s : State) :
    exec (.rdmem addr) s =
      .next ((s.memRead addr.toNat).2.respond (.word (s.mem.read (s.cellOf addr.toNat)))) := rfl

/-- Settles O6, by induction on the instructions between the two reads: each leaves the cell and the parameters, on
which alone the answer of RDMEM depends. -/
theorem readsAreIdempotent : Obligations.ReadsAreIdempotent := by
  intro addr s
  refine ⟨_, exec_rdmem_next addr s, rfl, fun is u hwf hspares hrun => ⟨_, exec_rdmem_next addr u, ?_⟩⟩
  obtain ⟨hread, hparams⟩ :
      u.mem.read (s.cellOf addr.toNat) = s.mem.read (s.cellOf addr.toNat) ∧ u.params = s.params :=
    read_of_sparesCell (s := (s.memRead addr.toNat).2.respond _) hwf hspares hrun
  rw [respond_response, respond_response, cellOf_eq_of_params hparams, hread]

/-! ### Streams of WRMEM (R49) -/

/-- A presented WRMEM decodes to itself in every state (R61). -/
theorem decodeInput_wrmem (addr : Word) (v : Int) (s : State) :
    s.decodeInput (encode (.wrmem addr v)) = .ok (.wrmem addr v) := by
  refine (decode_of_not_encFromSlot rfl _ _).trans ?_
  simp only [decodeSelector, selector_cmd]
  rfl

/-- A step on a presented WRMEM stores its value in the state with that command taken. -/
theorem step_wrmem {s : State} {addr : Word} {v : Int} {rest : List Input}
    (h : s.pending = encode (.wrmem addr v) :: rest) :
    step s = .next ((({ s with pending := rest } : State).memWrite addr.toNat v).respond .none) := by
  rw [step_cons h, decodeInput_wrmem]
  rfl

/-- A stream of WRMEM runs to its end; each cell then holds the last value stored to it, and the parameters stay. -/
theorem run_wrmems {ws : List (Word × Int)} :
    ∀ {s : State}, s.mem.wf = true → s.pending = ws.map (fun p => encode (.wrmem p.1 p.2)) →
      ∃ t, Host.Core.run core ws.length s = .next t ∧ t.params = s.params ∧
        ∀ k, t.mem.read k =
          ws.foldl (fun w p => if p.1.toNat % s.memSize = k then norm16 p.2 else w) (s.mem.read k) := by
  induction ws with
  | nil => exact fun {s} _ _ => ⟨s, rfl, rfl, fun _ => rfl⟩
  | cons p ws ih =>
    intro s hwf hp
    obtain ⟨t, hrun, hparams, hread⟩ := ih
      (s := (({ s with pending := ws.map fun p => encode (.wrmem p.1 p.2) } : State).memWrite p.1.toNat p.2).respond
        .none) (Memory.wf_write hwf _ _) rfl
    refine ⟨t, (run_succ (step_wrmem hp)).trans hrun, hparams, fun k => (hread k).trans ?_⟩
    have hfirst : (s.mem.write (s.cellOf p.1.toNat) (norm16 p.2)).read k =
        if p.1.toNat % s.memSize = k then norm16 p.2 else s.mem.read k := by
      rw [Memory.read_write hwf, State.cellOf]
      simp only [eq_comm]
    rw [List.foldl_cons, ← hfirst]
    rfl

/-- Settles O7: RDMEM reads the cell by the same MEMSIZE, since the run leaves the parameters. -/
theorem readReturnsTheMostRecentWrite : Obligations.ReadReturnsTheMostRecentWrite := by
  intro ws s hwf hp
  obtain ⟨t, hrun, hparams, hread⟩ := run_wrmems hwf hp
  refine ⟨t, hrun, hread, fun a => ⟨_, exec_rdmem_next a t, ?_⟩⟩
  rw [respond_response, cellOf_eq_of_params hparams]
  rfl

/-! ### Addresses that reach one cell (R42) -/

/-- MEMSIZE is a power of two up to 65536, so folding a 16-bit sum folds the exact sum (R42, decision D8). -/
theorem cellOf_add (s : State) (a b : Word) : s.cellOf (a.toNat + b.toNat) = s.cellOf (a + b).toNat := by
  have hdvd : s.memSize ∣ 2 ^ 16 := Nat.pow_dvd_pow 2 (Nat.le_of_lt_succ s.params.memBits.isLt)
  rw [State.cellOf, State.cellOf, BitVec.toNat_add, Nat.mod_mod_of_dvd _ hdvd]

/-- Addresses of one cell read alike. -/
theorem memRead_congr {s : State} {j k : Nat} (h : s.cellOf j = s.cellOf k) : s.memRead j = s.memRead k := by
  rw [State.memRead, State.peekMem, h]
  rfl

/-- Addresses of one cell are written alike. -/
theorem memWrite_congr {s : State} {j k : Nat} (h : s.cellOf j = s.cellOf k) (v : Int) :
    s.memWrite j v = s.memWrite k v := by
  rw [State.memWrite, h]
  rfl

/-- Settles O8: every access named goes through `memRead` or `memWrite`, which look at the cell alone. -/
theorem addressSumsAreSixteenBitSums : Obligations.AddressSumsAreSixteenBitSums := by
  intro s sl v
  refine ⟨fun a b h => ⟨?_, ?_⟩, fun hl => ⟨fun r => ⟨?_, ?_⟩, ?_, ?_⟩⟩
  · exact congrArg answerWord (memRead_congr h)
  · exact congrArg answerNone (memWrite_congr h v)
  · rw [exec_getIdx, withLoaded_of_loaded hl, exec_rdmem, State.idxAddr, memRead_congr (cellOf_add s _ _)]
  · rw [exec_setIdx, withLoaded_of_loaded hl, exec_wrmem, State.idxAddr, memWrite_congr (cellOf_add s _ _)]
  · rw [exec_getPick, withLoaded_of_loaded hl, exec_rdmem, State.pickAddr, memRead_congr (cellOf_add s _ _)]
    rfl
  · rw [exec_setPick, withLoaded_of_loaded hl, exec_wrmem, State.pickAddr, memWrite_congr (cellOf_add s _ _)]
    rfl

/-! ### What memory holds passes through (R41) -/

/-- `s` with `m` for its memory. -/
def State.withMem (m : Memory) (s : State) : State := { s with mem := m }

@[simp] theorem withMem_slot (m : Memory) (s : State) (sl : SlotId) : (s.withMem m).slot sl = s.slot sl := by
  cases sl <;> rfl

/-- The cell stored to does not depend on what memory holds. -/
theorem storeCell_withMem (i : Instr) (m : Memory) (s : State) :
    Claims.storeCell i (s.withMem m) = Claims.storeCell i s := by
  cases i with
  | setIdx sl | setPick sl | setAbs sl => cases sl <;> rfl
  | _ => rfl

/-- GET and SET pass the loaded test alike whatever memory holds; what follows the test decides. -/
theorem withLoaded_withMem {m : Memory} {s : State} {sl : SlotId} {k k' : Slot → Host.Outcome State Fault Refusal}
    (hk : Claims.mapNext (State.withMem []) (k' (s.slot sl)) = Claims.mapNext (State.withMem []) (k (s.slot sl))) :
    Claims.mapNext (State.withMem []) ((s.withMem m).withLoaded sl k') =
      Claims.mapNext (State.withMem []) (s.withLoaded sl k) := by
  rw [mapNext_withLoaded, mapNext_withLoaded]
  exact withLoaded_congr (withMem_slot m s sl) hk

/-- An instruction that does not read memory does the same whatever memory holds, memory itself apart. -/
theorem exec_withMem {i : Instr} (h : Claims.readsMem i = false) (m : Memory) (s : State) :
    Claims.mapNext (State.withMem []) (exec i (s.withMem m)) = Claims.mapNext (State.withMem []) (exec i s) := by
  cases i with
  | rdmem | nextword | loadIdx | loadPick | loadAbs | loadImm | getInd | getIdx | getStk | getPeek | getPick
  | getAbs => cases h
  | loadReg sl | loadInd sl | loadStk sl | loadPeek sl | loadSpd sl | loadPcd sl | loadExd sl | loadLit sl =>
    cases sl <;> rfl
  | getReg | getSpd | getPcd | getExd | getImm | getLit | setReg | setInd | setIdx | setStk | setPeek | setPick
  | setSpd | setPcd | setExd | setAbs | setImm | setLit =>
    simp only [exec_getReg, exec_getSpd, exec_getPcd, exec_getExd, exec_getImm, exec_getLit, exec_setReg, exec_setInd,
      exec_setIdx, exec_setStk, exec_setPeek, exec_setPick, exec_setSpd, exec_setPcd, exec_setExd, exec_setAbs,
      exec_setImm, exec_setLit]
    exact withLoaded_withMem rfl
  | _ => rfl

/-- Outcomes that agree but for memory are equal once the memory of the one is put into the other. -/
theorem eq_mapNext_withMem {m : Memory} {o o' : Host.Outcome State Fault Refusal}
    (h : Claims.mapNext (State.withMem []) o = Claims.mapNext (State.withMem []) o')
    (hm : ∀ t, o = .next t → t.mem = m) : o = Claims.mapNext (State.withMem m) o' := by
  have hback : ∀ o : Host.Outcome State Fault Refusal,
      Claims.mapNext (State.withMem m) (Claims.mapNext (State.withMem []) o) = Claims.mapNext (State.withMem m) o :=
    fun o => by cases o <;> rfl
  have hself : Claims.mapNext (State.withMem m) o = o := by
    cases o with
    | next t =>
      obtain rfl := hm t rfl
      rfl
    | fault r => rfl
    | refused r => rfl
  rw [← hself, ← hback o, h, hback o']

/-- An instruction that completes, neither storing nor RESET, leaves memory as it was. -/
theorem mem_of_not_store {i : Instr} {s t : State} (hstore : Claims.storeCell i s = none) (hreset : i ≠ .reset)
    (h : exec i s = .next t) : t.mem = s.mem := by
  obtain ⟨r, rfl⟩ := exec_next h
  exact stateAfter_mem_of_not_store hreset hstore

/-- Settles O52: the first clause follows from the second and the third, as the memory left is the one given. -/
theorem onlyMemoryCommandsTouchMemory : Obligations.OnlyMemoryCommandsTouchMemory := by
  intro i m s
  refine ⟨fun hreads hstore hreset => ?_, fun hreads => exec_withMem hreads m s,
    fun hstore hreset t h => mem_of_not_store hstore hreset h, rfl⟩
  have hstore' : Claims.storeCell i (s.withMem m) = none := (storeCell_withMem i m s).trans hstore
  exact eq_mapNext_withMem (exec_withMem hreads m s) fun t h => mem_of_not_store hstore' hreset h

end Sys2Proof.Machine
end

section
/-! PROOFS. The rows of the opcode table: a row of the selector is a code with a row of the descriptor under it, so that
which rows a selector fits is which row its descriptor fits. -/

namespace Sys2Proof

/-! ### The bits and the row of each mode -/

/-- The bits of a classification are its descriptor (R66 to R77). -/
theorem bits_encInstr (m : Mode) : (encInstr m).bits = m.desc.toNat := by
  cases m with
  | reg r => revert r; decide
  | ind r => revert r; decide
  | idx r => revert r; decide
  | lit n => revert n; decide
  | stk | peek | pick | spd | pcd | exd | abs | imm => rfl

/-- The bits of the classification of a descriptor are the descriptor (R61). -/
theorem bits_classify (e : Desc) : (encInstr (classify e)).bits = e.toNat := by
  rw [bits_encInstr, desc_classify]

/-- The descriptor with the bits of a mode's row classifies as that mode (R62). -/
theorem classify_of_bits {e : Desc} {m : Mode} (h : e.toNat = (encInstr m).bits) : classify e = m := by
  rw [bits_encInstr] at h
  rw [BitVec.eq_of_toNat_eq h, classify_desc]

/-- The bits of a mode fit the row of the mode, by the family RowFits. -/
theorem row_encInstr_fits (m : Mode) : (encInstr m).row.fits (encInstr m).bits = true := by
  cases m with
  | reg r => exact Laws.RowFits.encReg r
  | ind r => exact Laws.RowFits.encInd r
  | idx r => exact Laws.RowFits.encIdx r
  | stk => exact Laws.RowFits.encStk
  | peek => exact Laws.RowFits.encPeek
  | pick => exact Laws.RowFits.encPick
  | spd => exact Laws.RowFits.encSpd
  | pcd => exact Laws.RowFits.encPcd
  | exd => exact Laws.RowFits.encExd
  | abs => exact Laws.RowFits.encAbs
  | imm => exact Laws.RowFits.encImm
  | lit n => exact Laws.RowFits.encLit n

/-- A descriptor fits the row of its classification (R62). -/
theorem row_classify_fits (e : Desc) : (encInstr (classify e)).row.fits e.toNat = true := by
  have hfits := row_encInstr_fits (classify e)
  rwa [bits_classify] at hfits

/-- The selector of LOAD, GET and SET is the code 0x12, 0x13 or 0x14 over the descriptor (R61). -/
theorem bits_loadInstr (sl : SlotId) (m : Mode) : (loadInstr sl m).bits = 0x12 * 64 + (encInstr m).bits := by
  cases m <;> simp only [loadInstr, encInstr, Instr.bits] <;> omega

theorem bits_getInstr (sl : SlotId) (m : Mode) : (getInstr sl m).bits = 0x13 * 64 + (encInstr m).bits := by
  cases m <;> simp only [getInstr, encInstr, Instr.bits] <;> omega

theorem bits_setInstr (sl : SlotId) (v : Int) (m : Mode) :
    (setInstr sl v m).bits = 0x14 * 64 + (encInstr m).bits := by
  cases m <;> simp only [setInstr, encInstr, Instr.bits] <;> omega

/-! ### Rows of the selector -/

/-- The row of the selector that takes the code `c` and the descriptors of the row `d`: the whole code is matched,
and of the descriptor what `d` matches. `row_loadInstr` and its companions tie it to the table. -/
def Row.underCode (c : Nat) (d : Row) : Row := ⟨c * 64 + d.pattern, 0x1F * 64 + d.mask⟩

/-- The row of the descriptor that every descriptor fits: format CMD ignores `enc` (R61). -/
def anyDesc : Row := ⟨0, 0⟩

@[simp] theorem anyDesc_fits (w : Nat) : anyDesc.fits w = true := by
  simp [anyDesc, Row.fits]

theorem row_loadInstr (sl : SlotId) (m : Mode) : (loadInstr sl m).row = (encInstr m).row.underCode 0x12 := by
  cases m <;> rfl

theorem row_getInstr (sl : SlotId) (m : Mode) : (getInstr sl m).row = (encInstr m).row.underCode 0x13 := by
  cases m <;> rfl

theorem row_setInstr (sl : SlotId) (v : Int) (m : Mode) :
    (setInstr sl v m).row = (encInstr m).row.underCode 0x14 := by
  cases m <;> rfl

/-- A row that lies in the six bits of the descriptor. -/
def Row.inDesc (d : Row) : Bool := d.pattern < 64 && d.mask < 64

theorem anyDesc_inDesc : anyDesc.inDesc = true := rfl

theorem row_encInstr_inDesc (m : Mode) : (encInstr m).row.inDesc = true := by
  cases m <;> rfl

/-- A mask matches the code and the descriptor of a selector each on its own. -/
theorem selector_and_mask {c e m : Nat} (hc : c < 32) (he : e < 64) (hm : m < 64) :
    (c * 64 + e) &&& (0x1F * 64 + m) = c * 64 + (e &&& m) := by
  have hdiv : ((c * 64 + e) &&& (0x1F * 64 + m)) / 2 ^ 6 = c &&& 2 ^ 5 - 1 := by
    rw [Nat.and_div_two_pow]
    congr 1 <;> omega
  have hmod : ((c * 64 + e) &&& (0x1F * 64 + m)) % 2 ^ 6 = e &&& m := by
    rw [Nat.and_mod_two_pow]
    congr 1 <;> omega
  rw [Nat.and_two_pow_sub_one_eq_mod] at hdiv
  omega

/-- A selector fits a row under a code when it has the code and its descriptor fits the row. -/
theorem underCode_fits {d : Row} (hd : d.inDesc = true) {k : Nat} (c : BitVec 5) (e : Desc) :
    (d.underCode k).fits (c.toNat * 64 + e.toNat) = (decide (c.toNat = k) && d.fits e.toNat) := by
  obtain ⟨hpattern, hmask⟩ : d.pattern < 64 ∧ d.mask < 64 := by simpa [Row.inDesc] using hd
  have hand : e.toNat &&& d.mask < 64 := Nat.and_lt_two_pow e.toNat (n := 6) hmask
  rw [Row.underCode, Row.fits, selector_and_mask c.isLt e.isLt hmask, Row.fits, Bool.eq_iff_iff]
  simp only [beq_iff_eq, Bool.and_eq_true, decide_eq_true_eq]
  omega

/-! ### How many rows a selector fits -/

/-- The first 54 rows: each code below 0x12 over any descriptor, and 0x12, 0x13 and 0x14 over the twelve modes. -/
theorem selectorRows_eq : selectorRows =
    (List.range 0x12).map (fun k => anyDesc.underCode k) ++ descriptorRows.map (Row.underCode 0x12) ++
      descriptorRows.map (Row.underCode 0x13) ++ descriptorRows.map (Row.underCode 0x14) := rfl

/-- Of the rows that ignore the descriptor a selector fits the one of its code. -/
theorem countP_commandRows (n : Nat) (c : BitVec 5) (e : Desc) :
    ((List.range n).map fun k => anyDesc.underCode k).countP (fun row => row.fits (c.toNat * 64 + e.toNat)) =
      if c.toNat < n then 1 else 0 := by
  rw [List.countP_map, ← List.count_range, List.count]
  refine List.countP_congr fun k _ => ?_
  simpa [underCode_fits anyDesc_inDesc] using eq_comm

/-- Of the rows of the modes under one code a selector of that code fits those its descriptor fits, any other none. -/
theorem countP_underCode (k : Nat) (c : BitVec 5) (e : Desc) :
    (descriptorRows.map (Row.underCode k)).countP (fun row => row.fits (c.toNat * 64 + e.toNat)) =
      if c.toNat = k then descriptorRows.countP (fun row => row.fits e.toNat) else 0 := by
  have hfits : ∀ d ∈ descriptorRows, (d.underCode k).fits (c.toNat * 64 + e.toNat) =
      (decide (c.toNat = k) && d.fits e.toNat) := by
    intro d hd
    obtain ⟨m, -, rfl⟩ := List.mem_map.mp hd
    exact underCode_fits (row_encInstr_inDesc m) c e
  rw [List.countP_map, List.countP_congr fun d hd => by rw [Function.comp_apply, hfits d hd]]
  split
  case isTrue hk => simp [hk]
  case isFalse hk => simp [hk]

/-- A descriptor fits one of the twelve rows (R61). -/
theorem countP_descriptorRows (e : Desc) : descriptorRows.countP (fun row => row.fits e.toNat) = 1 := by
  revert e; decide

/-- Settles O37: the rows a selector fits are counted code by code. -/
theorem tableRowsAreExhaustiveAndExclusive : Obligations.TableRowsAreExhaustiveAndExclusive := by
  intro c e
  refine ⟨?_, List.countP_eq_length_filter.symm.trans (countP_descriptorRows e), rfl, rfl⟩
  rw [← List.countP_eq_length_filter, selectorRows_eq]
  simp only [List.countP_append, countP_commandRows, countP_underCode, countP_descriptorRows]
  split_ifs <;> omega

end Sys2Proof
end

section
/-! PROOFS. Decoding and encoding are inverse to each other: what the encoder does to the instruction of each mode,
what a selector that decodes stands for, and the two round trips. -/

namespace Sys2Proof

/-! ### The encoder on the instruction of each mode -/

@[simp] theorem encode_loadInstr (sl : SlotId) (m : Mode) : encode (loadInstr sl m) = loadTransaction sl m := by
  cases m <;> rfl

@[simp] theorem encode_getInstr (sl : SlotId) (m : Mode) : encode (getInstr sl m) = getTransaction sl := by
  cases m <;> rfl

@[simp] theorem encode_setInstr (sl : SlotId) (v : Int) (m : Mode) :
    encode (setInstr sl v m) = setTransaction sl v := by
  cases m <;> rfl

@[simp] theorem encode_encInstr (m : Mode) : encode (encInstr m) = .descriptor m.desc := by
  cases m <;> rfl

/-! ### Decoding what was encoded -/

/-- A presented LOAD decodes to LOAD in the mode of its own descriptor, whatever the slots hold (R110, R61). -/
theorem decode_loadTransaction (encB encA : Option Desc) (sl : SlotId) (m : Mode) :
    decode encB encA (loadTransaction sl m) = .ok (loadInstr sl m) := by
  refine (decode_of_not_encFromSlot rfl _ _).trans ?_
  simp only [decodeSelector, selector_cmd, selector_enc, slotOfBit_bit, classify_desc]
  rfl

/-- A descriptor presented alone decodes to its classification (R61). -/
theorem decode_descriptor_desc (encB encA : Option Desc) (m : Mode) :
    decode encB encA (.descriptor m.desc) = .ok (encInstr m) := by
  rw [decode, classify_desc]

/-- The rows that read a slot's descriptor are those of GET and SET (R61). -/
theorem getInstr_or_setInstr_of_slotMode {i : Instr} {sl : SlotId} {m : Mode} (h : i.slotMode = some (sl, m)) :
    i = getInstr sl m ∨ ∃ v, i = setInstr sl v m := by
  cases i with
  | getReg | getInd | getIdx | getStk | getPeek | getPick | getSpd | getPcd | getExd | getAbs | getImm | getLit =>
    cases h
    exact .inl rfl
  | setReg | setInd | setIdx | setStk | setPeek | setPick | setSpd | setPcd | setExd | setAbs | setImm | setLit =>
    cases h
    exact .inr ⟨_, rfl⟩
  | _ => cases h

/-- An instruction that reads no slot's descriptor decodes from its encoding whatever the slots hold. -/
theorem decode_encode_of_slotMode_none {i : Instr} (h : i.slotMode = none) (encB encA : Option Desc) :
    decode encB encA (encode i) = .ok i := by
  cases i with
  | getReg | getInd | getIdx | getStk | getPeek | getPick | getSpd | getPcd | getExd | getAbs | getImm | getLit
  | setReg | setInd | setIdx | setStk | setPeek | setPick | setSpd | setPcd | setExd | setAbs | setImm | setLit =>
    cases h
  | loadReg | loadInd | loadIdx | loadStk | loadPeek | loadPick | loadSpd | loadPcd | loadExd | loadAbs | loadImm
  | loadLit => exact decode_loadTransaction _ _ _ _
  | encReg | encInd | encIdx | encStk | encPeek | encPick | encSpd | encPcd | encExd | encAbs | encImm | encLit =>
    exact decode_descriptor_desc _ _ _
  | _ =>
    refine (decode_of_not_encFromSlot rfl _ _).trans ?_
    simp only [decodeSelector, selector_cmd]
    rfl

/-- A GET or SET row decodes from its encoding when the slot addressed holds the row's mode. -/
theorem decode_encode_of_slotMode_some {i : Instr} {sl : SlotId} {m : Mode} {encB encA : Option Desc}
    (h : i.slotMode = some (sl, m)) (hslot : pickSlotEnc encB encA sl = some m.desc) :
    decode encB encA (encode i) = .ok i := by
  obtain rfl | ⟨v, rfl⟩ := getInstr_or_setInstr_of_slotMode h
  · rw [encode_getInstr, decode_getTransaction, hslot]
    simp only [classify_desc]
  · rw [encode_setInstr, decode_setTransaction, hslot]
    simp only [classify_desc]

/-- Settles O35, by whether the row reads its mode from a slot. -/
theorem decodeOfEncodeIsTheInstruction : Obligations.DecodeOfEncodeIsTheInstruction := by
  intro i encB encA hslot
  cases hm : i.slotMode with
  | none => exact decode_encode_of_slotMode_none hm encB encA
  | some p => exact decode_encode_of_slotMode_some hm (hslot _ _ hm)

/-! ### The ports a command uses -/

/-- The transaction with 0 on every port its command does not use. `wellFormed_iff` ties it to `wellFormed`. -/
def Transaction.usedPorts (t : Transaction) : Transaction where
  cmd := t.cmd
  enc := if t.usesEnc then t.enc else 0
  slot := if t.usesSlot then t.slot else 0
  idx := if t.usesIdx then t.idx else 0
  addr := if t.usesAddr then t.addr else 0
  wdata := if t.usesWdata then t.wdata else 0

/-- A port is used or 0 exactly when clearing it if unused changes nothing. -/
theorem used_or_eq_iff {α : Type} [BEq α] [LawfulBEq α] {used : Bool} {x zero : α} :
    (used || x == zero) = true ↔ (if used then x else zero) = x := by
  cases used with
  | true => simp
  | false => simpa using eq_comm

/-- A transaction is well formed when its code is assigned and clearing the unused ports changes nothing (R10). -/
theorem wellFormed_iff {t : Transaction} : t.wellFormed = true ↔ t.assigned = true ∧ t.usedPorts = t := by
  cases t
  simp only [Transaction.wellFormed, Transaction.usedPorts, Transaction.mk.injEq, Bool.and_eq_true, used_or_eq_iff,
    true_and, and_assoc]

/-! ### Encoding what was decoded -/

/-- The inversion of a selector that decodes: a command that reads no descriptor, whose encoding is the transaction
with the unused ports cleared, or LOAD, GET or SET in the mode of the descriptor (R61). -/
theorem decodeSelector_ok {t : Transaction} {e : Desc} {i : Instr} (h : decodeSelector (t.cmd ++ e) t = .ok i) :
    (t.cmd.toNat < 0x12 ∧ i.row = anyDesc.underCode t.cmd.toNat ∧ encode i = .command t.usedPorts) ∨
      (t.cmd = 0x12 ∧ i = loadInstr (slotOfBit t.slot) (classify e)) ∨
      (t.cmd = 0x13 ∧ i = getInstr (slotOfBit t.slot) (classify e)) ∨
      (t.cmd = 0x14 ∧ i = setInstr (slotOfBit t.slot) t.wdata (classify e)) := by
  obtain ⟨cmd, enc, slot, idx, addr, wdata⟩ := t
  simp only [decodeSelector, selector_cmd, selector_enc] at h
  split at h
  case h_22 => cases h
  all_goals
    rename_i hcmd
    obtain ⟨-, rfl⟩ := BitVec.toNat_eq_nat.mp hcmd
    cases h
  case h_19 => exact .inr (.inl ⟨rfl, rfl⟩)
  case h_20 => exact .inr (.inr (.inl ⟨rfl, rfl⟩))
  case h_21 => exact .inr (.inr (.inr ⟨rfl, rfl⟩))
  all_goals exact .inl ⟨by simp, rfl, rfl⟩

/-- A command that decodes does so as a selector, of its own descriptor unless it reads that of a slot (R61). -/
theorem decode_command_ok {encB encA : Option Desc} {t : Transaction} {i : Instr}
    (h : decode encB encA (.command t) = .ok i) :
    ∃ e : Desc, decodeSelector (t.cmd ++ e) t = .ok i ∧ (t.encFromSlot = false → e = t.enc) := by
  cases ht : t.encFromSlot with
  | false => exact ⟨t.enc, decode_of_not_encFromSlot ht encB encA ▸ h, fun _ => rfl⟩
  | true =>
    simp only [decode, Transaction.selector, ht, if_true] at h
    cases hp : pickSlotEnc encB encA (slotOfBit t.slot) with
    | none => simp [hp] at h
    | some e => exact ⟨e, by simpa [hp] using h, nofun⟩

/-- A command that decodes is encoded as the same transaction with the unused ports cleared. -/
theorem encode_of_decode_command {encB encA : Option Desc} {t : Transaction} {i : Instr}
    (h : decode encB encA (.command t) = .ok i) : encode i = .command t.usedPorts := by
  obtain ⟨e, he, henc⟩ := decode_command_ok h
  have hports := decodeSelector_ok he
  obtain ⟨cmd, enc, slot, idx, addr, wdata⟩ := t
  obtain ⟨-, -, hi⟩ | ⟨rfl, rfl⟩ | ⟨rfl, rfl⟩ | ⟨rfl, rfl⟩ := hports
  · exact hi
  · obtain rfl : e = enc := henc rfl
    rw [encode_loadInstr, loadTransaction, bit_slotOfBit, desc_classify]
    rfl
  · rw [encode_getInstr, getTransaction, bit_slotOfBit]
    rfl
  · rw [encode_setInstr, setTransaction, bit_slotOfBit]
    rfl

/-- The encoder presents an assigned code and 0 on every port its command does not use (R10). -/
theorem encode_wellFormed (i : Instr) : (encode i).wellFormed = true := by
  cases i <;> rfl

/-- Settles O36: encoding clears the unused ports, and a well-formed transaction has nothing to clear. -/
theorem encodeOfDecodeIsTheInput : Obligations.EncodeOfDecodeIsTheInput := by
  refine ⟨fun inp encB encA i hwf h => ?_, encode_wellFormed⟩
  cases inp with
  | descriptor e =>
    cases h
    rw [encode_encInstr, desc_classify]
  | command t => rw [encode_of_decode_command h, (wellFormed_iff.mp hwf).2]

end Sys2Proof
end

section
/-! PROOFS. The row of a decoded selector. -/

namespace Sys2Proof

/-- An instruction whose row and bits are those of the descriptor's classification under the code `c` has the
selector's bits, and its row fits them. -/
theorem fits_bits_of_underCode {i : Instr} {c : BitVec 5} {e : Desc}
    (hrow : i.row = (encInstr (classify e)).row.underCode c.toNat)
    (hbits : i.bits = c.toNat * 64 + (encInstr (classify e)).bits) :
    i.row.fits (c.toNat * 64 + e.toNat) = true ∧ i.bits = c.toNat * 64 + e.toNat := by
  rw [hrow, hbits, underCode_fits (row_encInstr_inDesc _), row_classify_fits, bits_classify]
  simp

/-- A selector fits the row of the instruction it decodes to, and has its bits where the row matches the descriptor:
below the code 0x12 the row ignores it. -/
theorem decodeSelector_fits_row {t : Transaction} {e : Desc} {i : Instr}
    (h : decodeSelector (t.cmd ++ e) t = .ok i) :
    i.row.fits (t.cmd.toNat * 64 + e.toNat) = true ∧
      (0x12 ≤ t.cmd.toNat → i.bits = t.cmd.toNat * 64 + e.toNat) := by
  obtain ⟨hc, hrow, -⟩ | ⟨hc, rfl⟩ | ⟨hc, rfl⟩ | ⟨hc, rfl⟩ := decodeSelector_ok h
  · rw [hrow, underCode_fits anyDesc_inDesc, anyDesc_fits]
    exact ⟨by simp, fun hle => by omega⟩
  all_goals rw [hc]
  · exact (fits_bits_of_underCode (row_loadInstr _ _) (bits_loadInstr _ _)).imp_right fun hbits _ => hbits
  · exact (fits_bits_of_underCode (row_getInstr _ _) (bits_getInstr _ _)).imp_right fun hbits _ => hbits
  · exact (fits_bits_of_underCode (row_setInstr _ _ _) (bits_setInstr _ _ _)).imp_right fun hbits _ => hbits

/-- A selector fails to decode exactly when its code is unassigned (R78). -/
theorem decodeSelector_error_iff {t : Transaction} {e : Desc} :
    (∃ err, decodeSelector (t.cmd ++ e) t = .error err) ↔ 0x15 ≤ t.cmd.toNat := by
  refine ⟨fun ⟨err, herr⟩ => ?_, fun hc => ⟨_, decodeSelector_of_unassigned hc e⟩⟩
  by_contra hc
  obtain ⟨i, hi, -⟩ := decodeSelector_of_assigned (t := t) (by omega) e
  cases herr.symm.trans hi

/-- Settles O38. The ports besides the code are those of `t`, whose own code no selector reads. -/
theorem decodedInstructionFitsItsRow : Obligations.DecodedInstructionFitsItsRow := by
  intro c e t
  exact ⟨fun i h => decodeSelector_fits_row (t := { t with cmd := c }) h,
    decodeSelector_error_iff (t := { t with cmd := c }), row_classify_fits e, bits_classify e⟩

end Sys2Proof
end

section
/-! PROOFS. The twelve modes by number: the ranges of the descriptor (R62, R63), what the classifier rows answer, and
the selectors the spec writes out. -/

namespace Sys2Proof

/-- A descriptor takes an extra word by its number (R63). -/
theorem needsExtra_iff (e : Desc) :
    needsExtra e = true ↔
      (0x10 ≤ e.toNat ∧ e.toNat ≤ 0x17) ∨ e.toNat = 0x1A ∨ e.toNat = 0x1E ∨ e.toNat = 0x1F := by
  have he := e.isLt
  have hidx : e.extractLsb' 3 3 = 0b010 ↔ 0x10 ≤ e.toNat ∧ e.toNat ≤ 0x17 := by
    rw [← BitVec.toNat_inj, BitVec.extractLsb'_toNat, Nat.shiftRight_eq_div_pow]
    change e.toNat / 2 ^ 3 % 2 ^ 3 = 2 ↔ _
    omega
  simp only [needsExtra, Bool.or_eq_true, beq_iff_eq, hidx, or_assoc, ← BitVec.toNat_inj]
  rfl

/-- Settles O33: a descriptor is classified by the mode whose bits it has, and each range lists the bits of its mode. -/
theorem descriptorRangesSelectTheModes : Obligations.DescriptorRangesSelectTheModes := by
  intro e
  have hlt : e.toNat < 64 := e.isLt
  refine ⟨fun hlo hhi => classify_of_bits ?_, fun hlo hhi => classify_of_bits ?_, fun hlo hhi => classify_of_bits ?_,
    classify_of_bits (m := .stk), classify_of_bits (m := .peek), classify_of_bits (m := .pick),
    classify_of_bits (m := .spd), classify_of_bits (m := .pcd), classify_of_bits (m := .exd),
    classify_of_bits (m := .abs), classify_of_bits (m := .imm), fun hlo => classify_of_bits ?_, needsExtra_iff e⟩
  all_goals
    simp only [encInstr, Instr.bits, BitVec.toNat_ofNat]
    omega

/-- Settles O39, by running the decoder on the words of V12. -/
theorem selectorsOfTheSpecDecodeAsWritten : Obligations.SelectorsOfTheSpecDecodeAsWritten := by
  unfold Obligations.SelectorsOfTheSpecDecodeAsWritten
  decide

end Sys2Proof

namespace Sys2Proof.Machine

/-- The classifier row of a mode answers the mode and its extra-word mark (R61, R62). -/
theorem exec_encInstr {m : Mode} {b : Bool} (h : m.takesExtra = b) (s : State) :
    exec (encInstr m) s = .next { s with response := .mode m b } := by
  subst h
  cases m <;> rfl

/-- Settles O34: the modes that take an extra word are IDX, PICK, ABS and IMM. -/
theorem classifierRowsReturnTheMode : Obligations.ClassifierRowsReturnTheMode :=
  fun r n s => ⟨exec_encInstr (takesExtra_reg r) s, exec_encInstr (takesExtra_ind r) s,
    exec_encInstr (takesExtra_idx r) s, exec_encInstr (m := .stk) rfl s, exec_encInstr (m := .peek) rfl s,
    exec_encInstr (m := .pick) rfl s, exec_encInstr (m := .spd) rfl s, exec_encInstr (m := .pcd) rfl s,
    exec_encInstr (m := .exd) rfl s, exec_encInstr (m := .abs) rfl s, exec_encInstr (m := .imm) rfl s,
    exec_encInstr (takesExtra_lit n) s⟩

end Sys2Proof.Machine
end

section
/-! PROOFS. A table word presented with `withFetchWord` is decoded as the table reads it, because the slot that a GET
or SET row addresses is given the word's own descriptor. -/

namespace Sys2Proof

/-- A transaction of a table word has the word's low six bits for its descriptor. -/
theorem enc_of_tableInput {nbits w : Nat} {t : Transaction} (h : tableInput nbits w = some (.command t)) :
    t.enc = BitVec.ofNat 6 (w % 64) := by
  simp only [tableInput] at h
  split_ifs at h
  all_goals cases h
  rfl

/-- The inversion of a table word that decodes: it stands for an input, and both slots are taken to hold its bits. -/
theorem decodeTableWord_some {nbits w : Nat} {i : Instr} (h : decodeTableWord nbits w = some i) :
    ∃ inp, tableInput nbits w = some inp ∧
      decode (some (BitVec.ofNat 6 (w % 64))) (some (BitVec.ofNat 6 (w % 64))) inp = .ok i := by
  cases hinp : tableInput nbits w with
  | none => simp [decodeTableWord, hinp] at h
  | some inp =>
    refine ⟨inp, rfl, ?_⟩
    cases hdec : decode (some (BitVec.ofNat 6 (w % 64))) (some (BitVec.ofNat 6 (w % 64))) inp with
    | error err => simp [decodeTableWord, hinp, hdec] at h
    | ok j =>
      simp only [decodeTableWord, hinp, hdec, Option.some.injEq] at h
      rw [h]

/-- GET and SET decode by the descriptor of the slot they address alone (R61). -/
theorem decode_congr_of_pickSlotEnc {t : Transaction} {encB encA encB' encA' : Option Desc}
    (h : pickSlotEnc encB encA (slotOfBit t.slot) = pickSlotEnc encB' encA' (slotOfBit t.slot)) :
    decode encB encA (.command t) = decode encB' encA' (.command t) := by
  simp only [decode, Transaction.selector, h]

end Sys2Proof

namespace Sys2Proof.Machine

/-- The input of a table word presented stands before the commands that were pending. -/
theorem withFetchWord_pending {nbits w : Nat} {inp : Input} (h : tableInput nbits w = some inp) (s : State) :
    (s.withFetchWord nbits w).pending = inp :: s.pending := by
  rw [State.withFetchWord, State.presentTableWord, h]
  cases inp with
  | descriptor e => rfl
  | command t =>
    cases ht : t.encFromSlot with
    | false => simp [ht]
    | true => simp [ht]

/-- The slot a presented GET or SET row addresses holds the row's descriptor (R61, log 15). -/
theorem withFetchWord_enc? {nbits w : Nat} {t : Transaction} (h : tableInput nbits w = some (.command t))
    (ht : t.encFromSlot = true) (s : State) :
    ((s.withFetchWord nbits w).slot (slotOfBit t.slot)).enc? = some (BitVec.ofNat 6 (w % 64)) := by
  rw [State.withFetchWord, State.presentTableWord, h]
  simp only [ht, if_true, slot_setSlot, ← enc_of_tableInput h]
  rfl

/-- A presented table word is decoded in its state as the table reads it. -/
theorem decodeInput_withFetchWord {nbits w : Nat} {inp : Input} (h : tableInput nbits w = some inp) (s : State) :
    (s.withFetchWord nbits w).decodeInput inp =
      decode (some (BitVec.ofNat 6 (w % 64))) (some (BitVec.ofNat 6 (w % 64))) inp := by
  cases inp with
  | descriptor e => rfl
  | command t =>
    cases ht : t.encFromSlot with
    | false => rw [State.decodeInput, decode_of_not_encFromSlot ht, decode_of_not_encFromSlot ht]
    | true =>
      refine decode_congr_of_pickSlotEnc ?_
      rw [pickSlotEnc_slots, withFetchWord_enc? h ht]
      cases slotOfBit t.slot <;> rfl

/-- Settles O42, by the step on the input the table word stands for. -/
theorem presentedTableWordRunsNext : Obligations.PresentedTableWordRunsNext := by
  intro s nbits w i h
  obtain ⟨inp, hinp, hdec⟩ := decodeTableWord_some h
  rw [step_cons (withFetchWord_pending hinp s), decodeInput_withFetchWord hinp, hdec]

end Sys2Proof.Machine
end

section
/-! PROOFS. The normaliser (40_machine_state_ops.md R80, R98): its value by the sign of the integer handed in. -/

namespace Sys2Proof.Machine

/-- A non-negative integer is folded modulo 65536 (R80). -/
theorem toNat_norm16_of_nonneg {v : Int} (h : 0 ≤ v) : ((norm16 v).toNat : Int) = v % 65536 := by
  rw [norm16_of_nonneg h, BitVec.toNat_ofNat]
  omega

/-- A negative integer is folded by its size with bit 15 flipped, not by two's complement (R80). -/
theorem toNat_norm16_of_neg {v : Int} (h : v < 0) : ((norm16 v).toNat : Int) = (|v| + 32768) % 65536 := by
  rw [norm16_of_neg h, BitVec.toNat_ofNat, Int.abs_eq_natAbs]
  omega

/-- Settles O1, by the sign of the integer; below 65536 the fold changes nothing. -/
theorem normalisationFollowsTheFormula : Obligations.NormalisationFollowsTheFormula := by
  intro v
  refine ⟨?_, fun h0 hmax => ?_⟩
  · split_ifs with h
    · exact toNat_norm16_of_nonneg h
    · exact toNat_norm16_of_neg (Int.not_le.mp h)
  · rw [toNat_norm16_of_nonneg h0]
    omega

/-- Settles O2: the result is a word, which the normaliser keeps; -1 goes to 0x8001, not to 0xFFFF. -/
theorem normalisationIsIdempotentAndBounded : Obligations.NormalisationIsIdempotentAndBounded := by
  refine ⟨fun v => ⟨Nat.le_of_lt_succ (norm16 v).isLt, norm16_word (norm16 v)⟩, by decide, fun h => ?_⟩
  exact absurd (h (-1)) (by decide)

end Sys2Proof.Machine
end

section
/-! PROOFS. The Machine State commands (40_machine_state_ops.md R81 to R101): the exact state each one ends in, and pairs
of them. -/

namespace Sys2Proof.Machine

/-! ### What a command's answer says of it -/

/-- A command that answers a word in the same state returns it and changes nothing. -/
theorem returns_of_answerWord {i : Instr} {s : State} {w : Word} (h : exec i s = answerWord (w, s)) :
    Claims.Returns i s s.sp 0 w := h

/-- A command that answers the word of an access returns it and adds 1 to `cyc` (R81). -/
theorem returns_of_memRead {i : Instr} {s : State} {addr : Nat} (h : exec i s = answerWord (s.memRead addr)) :
    Claims.Returns i s s.sp 1 (s.mem.read (addr % s.memSize)) := h

/-- A command that ends in a store changes the one cell its address reaches (R82). -/
theorem stores_of_memWrite {i : Instr} {s : State} {addr : Nat} {v : Int} (hwf : s.mem.wf = true)
    (h : exec i s = answerNone (s.memWrite addr v)) : Claims.Stores i s s.sp addr v :=
  ⟨_, h, rfl, fun k => read_memWrite hwf addr k v⟩

/-! ### Memory and fetch -/

/-- Settles O3: RDMEM is one access. -/
theorem rdmemReadsTheFoldedCell : Obligations.RdmemReadsTheFoldedCell :=
  fun addr s => returns_of_memRead (exec_rdmem addr s)

/-- NEXTWORD completes with the word of the cell `pc` designates (R85). -/
theorem exec_nextword_next (s : State) :
    exec .nextword s = .next (s.nextWord.2.respond (.word (s.mem.read (s.cellOf s.pc.toNat)))) := rfl

/-- Settles O10: the fetch is an access at `pc`, which is then incremented modulo 65536. -/
theorem nextwordFetchesThenAdvances : Obligations.NextwordFetchesThenAdvances := by
  intro s
  rw [exec_nextword_next, ← incr_ofNat]
  rfl

/-- WRMEM completes in the state its store leaves (R82). -/
theorem exec_wrmem_next (addr : Word) (v : Int) (s : State) :
    exec (.wrmem addr v) s = .next ((s.memWrite addr.toNat v).respond .none) := rfl

/-- Settles O4: the store changes the one cell, and a fetch after it folds `pc` by the same MEMSIZE. -/
theorem wrmemStoresOneNormalisedCell : Obligations.WrmemStoresOneNormalisedCell := by
  intro addr v s hwf
  refine ⟨stores_of_memWrite hwf (exec_wrmem addr v s), _, _, exec_wrmem_next addr v s, exec_nextword_next _,
    fun hcell => ?_⟩
  exact congrArg Response.word ((read_memWrite hwf addr.toNat _ v).trans (if_pos hcell))

/-- Settles O5: the read reaches the cell stored to, and each of the two accesses counts one cycle. -/
theorem writeThenReadReturnsTheNormalisedValue : Obligations.WriteThenReadReturnsTheNormalisedValue := by
  intro addr v s hwf
  refine ⟨_, _, exec_wrmem_next addr v s, exec_rdmem_next addr _, ?_, rfl⟩
  exact congrArg Response.word ((read_memWrite hwf addr.toNat _ v).trans (if_pos rfl))

/-! ### Registers -/

/-- Settles O9: RDREG answers in the same state, and a register read after WRREG is the one written or as before. -/
theorem registerReadsAndWrites : Obligations.RegisterReadsAndWrites :=
  fun idx v s => ⟨returns_of_answerWord (exec_rdreg idx s), _, exec_wrreg idx v s, rfl,
    fun j => reg_setReg s idx j v⟩

/-- Settles O14: each accessor answers in the same state. -/
theorem accessorsReturnTheirRegister : Obligations.AccessorsReturnTheirRegister :=
  fun s => ⟨returns_of_answerWord (exec_getpc s), returns_of_answerWord (exec_getsp s),
    returns_of_answerWord (exec_getex s), returns_of_answerWord (exec_getia s), exec_getcyc s⟩

/-- Settles O15: each mutator replaces its one register. -/
theorem mutatorsStoreTheNormalisedValue : Obligations.MutatorsStoreTheNormalisedValue :=
  fun v s => ⟨exec_setsp v s, exec_setex v s, exec_setia v s⟩

/-- Settles O16: both commands end in the state with `pc` replaced, from which the fetch starts. -/
theorem writingPcIsAJump : Obligations.WritingPcIsAJump := by
  intro v sl s i h
  have hexec : exec i s = answerNone { s with pc := norm16 v } := by
    rcases h with rfl | ⟨rfl, hl⟩
    · exact exec_setpc v s
    · rw [exec_setPcd, withLoaded_of_loaded hl]
  exact ⟨_, _, hexec, rfl, exec_nextword_next _, rfl, incr_ofNat (norm16 v)⟩

/-! ### Stack addresses -/

/-- PUSHSLOT completes with the decremented `sp` (R86). -/
theorem exec_pushslot_next (s : State) :
    exec .pushslot s = .next (s.pushSlot.2.respond (.word (decr s.sp))) := rfl

/-- POPSLOT completes with the `sp` it found (R87). -/
theorem exec_popslot_next (s : State) : exec .popslot s = .next (s.popSlot.2.respond (.word s.sp)) := rfl

/-- Settles O11: POPSLOT increments `sp` modulo 65536; PEEKADDR is GETSP under another name. -/
theorem popslotAndPeekaddrReturnTheTop : Obligations.PopslotAndPeekaddrReturnTheTop := by
  intro s
  refine ⟨?_, returns_of_answerWord (exec_peekaddr s), (exec_peekaddr s).trans (exec_getsp s).symm⟩
  rw [← incr_ofNat]
  exact exec_popslot_next s

/-- Settles O12: the decrement adds 65535 modulo 65536 (decision D7). -/
theorem pushslotDecrementsModulo65536 : Obligations.PushslotDecrementsModulo65536 := by
  intro s
  rw [← decr_ofNat]
  exact exec_pushslot_next s

/-- Settles O13: increment and decrement undo each other, in both orders and from every `sp`. -/
theorem pushAndPopAddressesAreInverses : Obligations.PushAndPopAddressesAreInverses := by
  intro s
  have hpopPush : decr (incr s.sp) = s.sp := decr_incr s.sp
  have hpushPop : incr (decr s.sp) = s.sp := incr_decr s.sp
  refine ⟨⟨_, _, exec_popslot_next s, exec_pushslot_next _, hpopPush, congrArg Response.word hpopPush⟩,
    ⟨_, _, exec_pushslot_next s, exec_popslot_next _, hpushPop, ?_, rfl⟩⟩
  rw [respond_response, decr_ofNat]

end Sys2Proof.Machine
end

section
/-! PROOFS. LOAD (41_resolver_load.md R110 to R122): what it leaves in its slot and in the rest of the state, by whether
the mode takes an extra word. -/

namespace Sys2Proof.Machine

/-- A LOAD that latches no extra word writes its slot and the counter of free values, the result port apart (R110). -/
theorem latchPlain_frame (s : State) (sl : SlotId) (e : Desc) :
    (s.latchPlain sl e).respond .none =
      { s with slotB := (s.latchPlain sl e).slotB, slotA := (s.latchPlain sl e).slotA,
               freeCount := (s.latchPlain sl e).freeCount, response := .none } := by
  cases sl <;> rfl

/-- A LOAD that latches an extra word writes its slot, `pc` and `cyc`, the result port apart (R110). -/
theorem latchExtra_frame (s : State) (sl : SlotId) (e : Desc) :
    (s.latchExtra sl e).respond .none =
      { s with slotB := (s.latchExtra sl e).slotB, slotA := (s.latchExtra sl e).slotA,
               pc := BitVec.ofNat 16 (s.pc.toNat + 1), cyc := s.cyc + 1, response := .none } := by
  rw [← incr_ofNat]
  cases sl <;> rfl

/-- LOAD in a mode that takes no extra word latches the bits of the mode's classifier row (R110). -/
theorem latchesPlain_loadInstr {m : Mode} (h : m.takesExtra = false) (sl : SlotId) :
    Claims.LatchesPlain (loadInstr sl m) sl (encInstr m).bits := by
  intro s
  have hslot : ((s.latchPlain sl m.desc).respond .none).slot sl =
      { loaded := true, enc := m.desc, hasExtra := false, extra := Config.freeExtra s.freeCount } := by
    rw [respond_slot, latchPlain_slot, if_pos rfl]
  refine ⟨_, exec_loadInstr_plain h sl s, latchPlain_frame s sl m.desc, fun j hj => ?_, ?_⟩
  · rw [respond_slot, latchPlain_slot, if_neg hj]
  · rw [hslot]
    exact ⟨rfl, (bits_encInstr m).symm, rfl⟩

/-- LOAD in a mode that takes an extra word latches the bits of the mode's classifier row and the fetched word (R110). -/
theorem latchesExtra_loadInstr {m : Mode} (h : m.takesExtra = true) (sl : SlotId) :
    Claims.LatchesExtra (loadInstr sl m) sl (encInstr m).bits := by
  intro s
  refine ⟨_, exec_loadInstr_extra h sl s, latchExtra_frame s sl m.desc, fun j hj => ?_, ?_⟩
  · rw [respond_slot, latchExtra_slot, if_neg hj]
  · rw [respond_slot, latchExtra_slot, if_pos rfl, nextWord_word, State.cellOf, bits_encInstr, BitVec.ofNat_toNat,
      BitVec.setWidth_eq]

/-- Settles O17: none of the eight modes takes an extra word. -/
theorem loadWithoutExtraWordOnlyFillsItsSlot : Obligations.LoadWithoutExtraWordOnlyFillsItsSlot :=
  fun sl r n => ⟨latchesPlain_loadInstr (takesExtra_reg r) sl, latchesPlain_loadInstr (takesExtra_ind r) sl,
    latchesPlain_loadInstr (m := .stk) rfl sl, latchesPlain_loadInstr (m := .peek) rfl sl,
    latchesPlain_loadInstr (m := .spd) rfl sl, latchesPlain_loadInstr (m := .pcd) rfl sl,
    latchesPlain_loadInstr (m := .exd) rfl sl, latchesPlain_loadInstr (takesExtra_lit n) sl⟩

/-- Settles O18: each of the four modes takes an extra word. -/
theorem loadWithExtraWordFetchesIt : Obligations.LoadWithExtraWordFetchesIt :=
  fun sl r => ⟨latchesExtra_loadInstr (takesExtra_idx r) sl, latchesExtra_loadInstr (m := .pick) rfl sl,
    latchesExtra_loadInstr (m := .abs) rfl sl, latchesExtra_loadInstr (m := .imm) rfl sl⟩

end Sys2Proof.Machine
end

section
/-! PROOFS. GET (42_resolver_get.md R130 to R142): the mode a presented GET or SET runs in, and what GET of a loaded slot
returns in each mode. -/

namespace Sys2Proof.Machine

/-! ### The mode comes from the slot -/

/-- A presented GET decodes to the mode of the loaded slot it addresses (R130). -/
theorem decodeInput_getTransaction {s : State} {sl : SlotId} (h : (s.slot sl).loaded = true) :
    s.decodeInput (getTransaction sl) = .ok (getInstr sl (classify (s.slot sl).enc)) := by
  rw [State.decodeInput, decode_getTransaction, pickSlotEnc_slots, enc?_of_loaded h]

/-- A presented SET decodes to the mode of the loaded slot it addresses, with its value (R150). -/
theorem decodeInput_setTransaction {s : State} {sl : SlotId} (h : (s.slot sl).loaded = true) (v : Int) :
    s.decodeInput (setTransaction sl v) = .ok (setInstr sl v (classify (s.slot sl).enc)) := by
  rw [State.decodeInput, decode_setTransaction, pickSlotEnc_slots, enc?_of_loaded h]

/-- Settles O41: the step runs what the transaction decodes to. -/
theorem stepOfGetAndSetTakesTheModeFromTheSlot : Obligations.StepOfGetAndSetTakesTheModeFromTheSlot := by
  intro sl v rest s hl
  refine ⟨fun hp => ?_, fun hp => ?_⟩
  · rw [step_cons hp, decodeInput_getTransaction hl]
  · rw [step_cons hp, decodeInput_setTransaction hl]

/-! ### What GET of a loaded slot returns -/

/-- A GET that answers a word in the same state, behind the loaded test, returns it and changes nothing. -/
theorem returns_of_withLoaded_answerWord {i : Instr} {s : State} {sl : SlotId} {w : Slot → Word}
    (hl : (s.slot sl).loaded = true) (h : exec i s = s.withLoaded sl fun v => answerWord (w v, s)) :
    Claims.Returns i s s.sp 0 (w (s.slot sl)) :=
  returns_of_answerWord (h.trans (withLoaded_of_loaded hl _))

/-- A GET that answers the word of an access, behind the loaded test, returns it and adds 1 to `cyc`. -/
theorem returns_of_withLoaded_memRead {i : Instr} {s : State} {sl : SlotId} {addr : Slot → Nat}
    (hl : (s.slot sl).loaded = true) (h : exec i s = s.withLoaded sl fun v => answerWord (s.memRead (addr v))) :
    Claims.Returns i s s.sp 1 (s.mem.read (addr (s.slot sl) % s.memSize)) :=
  returns_of_memRead (h.trans (withLoaded_of_loaded hl _))

/-- The literal of mode LIT as a number (R64, R142). -/
theorem litValue_ofNat (n : BitVec 5) : litValue n = BitVec.ofNat 16 n.toNat :=
  (BitVec.ofNat_toNat 16 n).symm

/-- Settles O19: in each of the six modes GET answers in the same state. -/
theorem getOfRegistersAndConstants : Obligations.GetOfRegistersAndConstants := by
  intro sl r n s hl
  rw [← litValue_ofNat]
  exact ⟨returns_of_withLoaded_answerWord hl (exec_getReg sl r s),
    returns_of_withLoaded_answerWord hl (exec_getSpd sl s),
    returns_of_withLoaded_answerWord hl (exec_getPcd sl s),
    returns_of_withLoaded_answerWord hl (exec_getExd sl s),
    returns_of_withLoaded_answerWord hl (exec_getImm sl s),
    returns_of_withLoaded_answerWord hl (exec_getLit sl n s)⟩

/-- Settles O20: in each of the five modes GET is one access, at the mode's own address. -/
theorem getOfMemoryModesReadsOneCell : Obligations.GetOfMemoryModesReadsOneCell :=
  fun sl r s hl => ⟨returns_of_withLoaded_memRead hl (exec_getInd sl r s),
    returns_of_withLoaded_memRead hl (exec_getIdx sl r s),
    returns_of_withLoaded_memRead hl (exec_getPeek sl s),
    returns_of_withLoaded_memRead hl (exec_getPick sl s),
    returns_of_withLoaded_memRead hl (exec_getAbs sl s)⟩

/-- GET in mode STK on a loaded slot completes with the word at the old `sp`, in the state the pop leaves (R134). -/
theorem exec_getStk_of_loaded {s : State} {sl : SlotId} (h : (s.slot sl).loaded = true) :
    exec (.getStk sl) s = .next (s.popWord.2.respond (.word (s.mem.read (s.cellOf s.sp.toNat)))) := by
  rw [exec_getStk, withLoaded_of_loaded h, answerWord, popWord_word]

/-- Settles O21: the pop is an access at `sp`, which is then incremented modulo 65536. -/
theorem getOfStackModePops : Obligations.GetOfStackModePops := by
  intro sl s hl
  rw [← incr_ofNat]
  exact exec_getStk_of_loaded hl

end Sys2Proof.Machine
end

section
/-! PROOFS. SET (43_resolver_set.md R150 to R162): what SET of a loaded slot stores in each mode, and that it stores
nothing in modes IMM and LIT. -/

namespace Sys2Proof.Machine

/-! ### What SET of a loaded slot leaves -/

/-- A SET that answers nothing, behind the loaded test, completes in the state its store leaves. -/
theorem exec_of_withLoaded_answerNone {i : Instr} {s : State} {sl : SlotId} {f : Slot → State}
    (hl : (s.slot sl).loaded = true) (h : exec i s = s.withLoaded sl fun w => answerNone (f w)) :
    exec i s = .next ((f (s.slot sl)).respond .none) :=
  h.trans (withLoaded_of_loaded hl _)

/-- Settles O22: each of the three modes replaces its one register, and a general register read after SET is the one
written or as before. -/
theorem setOfRegistersStoresTheNormalisedValue : Obligations.SetOfRegistersStoresTheNormalisedValue :=
  fun sl r v s hl => ⟨⟨_, exec_of_withLoaded_answerNone hl (exec_setReg sl r v s), rfl, fun j => reg_setReg s r j v⟩,
    exec_of_withLoaded_answerNone hl (exec_setSpd sl v s),
    exec_of_withLoaded_answerNone hl (exec_setExd sl v s)⟩

/-! ### Stores to memory -/

/-- A SET that ends in a store, behind the loaded test, changes the one cell its address reaches (R82). -/
theorem stores_of_withLoaded_memWrite {i : Instr} {s : State} {sl : SlotId} {addr : Slot → Nat} {v : Int}
    (hl : (s.slot sl).loaded = true) (hwf : s.mem.wf = true)
    (h : exec i s = s.withLoaded sl fun w => answerNone (s.memWrite (addr w) v)) :
    Claims.Stores i s s.sp (addr (s.slot sl)) v :=
  stores_of_memWrite hwf (h.trans (withLoaded_of_loaded hl _))

/-- Settles O23: in each of the five modes SET is one store, at the mode's own address. -/
theorem setOfMemoryModesStoresOneCell : Obligations.SetOfMemoryModesStoresOneCell :=
  fun sl r v s hl hwf => ⟨stores_of_withLoaded_memWrite hl hwf (exec_setInd sl r v s),
    stores_of_withLoaded_memWrite hl hwf (exec_setIdx sl r v s),
    stores_of_withLoaded_memWrite hl hwf (exec_setPeek sl v s),
    stores_of_withLoaded_memWrite hl hwf (exec_setPick sl v s),
    stores_of_withLoaded_memWrite hl hwf (exec_setAbs sl v s)⟩

/-- SET in mode STK on a loaded slot completes in the state the push leaves (R154). -/
theorem exec_setStk_of_loaded {s : State} {sl : SlotId} (h : (s.slot sl).loaded = true) (v : Int) :
    exec (.setStk sl v) s = .next ((s.pushWord v).respond .none) :=
  exec_of_withLoaded_answerNone h (exec_setStk sl v s)

/-- Settles O24: the push decrements `sp` modulo 65536 and stores at the new `sp`. -/
theorem setOfStackModePushes : Obligations.SetOfStackModePushes := by
  intro sl v s hl hwf
  rw [← decr_ofNat]
  exact ⟨_, exec_setStk_of_loaded hl v, rfl, fun k => read_pushWord hwf k v⟩

/-! ### Modes IMM and LIT store nothing -/

/-- GET in mode LIT on a loaded slot returns the literal and changes nothing (R142). -/
theorem exec_getLit_of_loaded {s : State} {sl : SlotId} (h : (s.slot sl).loaded = true) (n : BitVec 5) :
    exec (.getLit sl n) s = .next (s.respond (.word (litValue n))) := by
  rw [exec_getLit, withLoaded_of_loaded h, answerWord]

/-- Settles O25: SET clears the response alone, so the GET after it finds the slot loaded with the same word. -/
theorem setOfImmediateOrLiteralIsANoOp : Obligations.SetOfImmediateOrLiteralIsANoOp := by
  intro sl n v s hl
  have hslot : (s.respond .none).slot sl = s.slot sl := respond_slot s .none sl
  have hl' : ((s.respond .none).slot sl).loaded = true := by rw [hslot, hl]
  refine ⟨⟨_, _, exec_of_withLoaded_answerNone hl (exec_setImm sl v s), rfl, exec_getImm_of_loaded hl', ?_⟩,
    ⟨_, _, exec_of_withLoaded_answerNone hl (exec_setLit sl n v s), rfl, exec_getLit_of_loaded hl' n, ?_⟩⟩
  · rw [respond_response, hslot]
  · rw [respond_response, litValue_ofNat]

end Sys2Proof.Machine
end

section
/-! PROOFS. The resolver contract (44_sequencing_and_control.md R170, R219): which slots are loaded after an input, that
a stream keeping the contract presents an accepted input first, and that the machine's slots follow the stream. -/

namespace Sys2Proof.Machine

/-- Whether slot `sl` is loaded after the input, if `l` says whether it was before: RESET unloads it, a LOAD of it
loads it, anything else leaves it. `keepsContract_cons` ties it to the contract, `step_slot_loaded` to the machine. -/
def loadedAfter (sl : SlotId) (l : Bool) : Input → Bool
  | .descriptor _ => l
  | .command t =>
    if t.cmd = 0x00 then false
    else if t.cmd = 0x12 then l || decide (slotOfBit t.slot = sl)
    else l

/-- A code that is neither GET's nor SET's is accepted when it is assigned (R12). -/
theorem accepts_of_not_encFromSlot {t : Transaction} {s : State} (ha : t.assigned = true)
    (ht : t.encFromSlot = false) : s.accepts (.command t) = true := by
  simp [State.accepts, ha, ht]

/-- GET and SET are accepted when the slot they address is loaded (R12, R201). -/
theorem accepts_of_encFromSlot {t : Transaction} {s : State} (ht : t.encFromSlot = true)
    (hl : (s.slot (slotOfBit t.slot)).loaded = true) : s.accepts (.command t) = true :=
  accepts_command.mpr ⟨by rcases encFromSlot_iff.mp ht with hc | hc <;> omega, fun _ => hl⟩

/-- A stream that keeps the contract begins with an accepted input, and what follows keeps the contract for the slots
loaded after it. -/
theorem keepsContract_cons {s : State} {inp : Input} {rest : List Input}
    (h : keepsContract s.slotB.loaded s.slotA.loaded (inp :: rest) = true) :
    s.accepts inp = true ∧
      keepsContract (loadedAfter .b s.slotB.loaded inp) (loadedAfter .a s.slotA.loaded inp) rest = true := by
  cases inp with
  | descriptor e => exact ⟨rfl, h⟩
  | command t =>
    simp only [keepsContract] at h
    simp only [loadedAfter]
    split_ifs at h ⊢ with hreset hload hgetset
    · exact ⟨accepts_of_not_encFromSlot (by simp [Transaction.assigned, hreset])
        (by simp [Transaction.encFromSlot, hreset]), h⟩
    · refine ⟨accepts_of_not_encFromSlot (by simp [Transaction.assigned, hload])
        (by simp [Transaction.encFromSlot, hload]), ?_⟩
      cases hsl : slotOfBit t.slot <;> simpa [hsl] using h
    · cases hsl : slotOfBit t.slot <;> simp only [hsl, Bool.and_eq_true] at h
      all_goals exact ⟨accepts_of_encFromSlot hgetset (by rw [hsl]; exact h.1), h.2⟩
    · obtain ⟨hassigned, hrest⟩ := Bool.and_eq_true_iff.mp h
      exact ⟨accepts_of_not_encFromSlot hassigned (Bool.eq_false_of_not_eq_true hgetset), hrest⟩

/-- A transaction of code 0 decodes to RESET (R61). -/
theorem instr_of_decodeInput_reset {t : Transaction} {s : State} {i : Instr}
    (h : s.decodeInput (.command t) = .ok i) (hc : t.cmd = 0x00) : i = .reset := by
  obtain ⟨e, he⟩ := decodeInput_command_ok h
  simp only [decodeSelector, selector_cmd, hc] at he
  exact (Except.ok.inj he).symm

/-- A transaction of code 0x12 decodes to a LOAD of the slot on its port (R61, R110). -/
theorem instr_of_decodeInput_load {t : Transaction} {s : State} {i : Instr}
    (h : s.decodeInput (.command t) = .ok i) (hc : t.cmd = 0x12) : ∃ m, i = loadInstr (slotOfBit t.slot) m := by
  obtain ⟨e, he⟩ := decodeInput_command_ok h
  obtain ⟨hlt, -⟩ | ⟨-, hi⟩ | ⟨hget, -⟩ | ⟨hset, -⟩ := decodeSelector_ok he
  · simp [hc] at hlt
  · exact ⟨_, hi⟩
  · exact absurd (hc.symm.trans hget) (by decide)
  · exact absurd (hc.symm.trans hset) (by decide)

/-- Only a transaction of code 0x12 decodes to a LOAD: its encoding has that code. -/
theorem decodeInput_ne_load {inp : Input} {s : State} {i : Instr} (h : s.decodeInput inp = .ok i)
    (hinp : ∀ t, inp = .command t → t.cmd ≠ 0x12) (sl : SlotId) (m : Mode) : i ≠ loadInstr sl m := by
  rintro rfl
  cases inp with
  | descriptor e =>
    have henc := congrArg encode (Except.ok.inj h)
    rw [encode_encInstr, encode_loadInstr] at henc
    cases henc
  | command t =>
    have henc := encode_of_decode_command h
    rw [encode_loadInstr] at henc
    exact hinp t rfl (congrArg Transaction.cmd (Input.command.inj henc)).symm

/-- The instruction an input decodes to loads and unloads the slots as `loadedAfter` says. -/
theorem stateAfter_slot_loaded {inp : Input} {s : State} {i : Instr} (h : s.decodeInput inp = .ok i) (s' : State)
    (sl : SlotId) : ((stateAfter i s').slot sl).loaded = loadedAfter sl (s'.slot sl).loaded inp := by
  have hkept (hreset : ∀ t, inp = .command t → t.cmd ≠ 0x00) (hload : ∀ t, inp = .command t → t.cmd ≠ 0x12) :
      (stateAfter i s').slot sl = s'.slot sl :=
    stateAfter_slot_of_not_load (decodeInput_ne_reset h hreset) (decodeInput_ne_load h hload) s' sl
  cases inp with
  | descriptor e => rw [hkept nofun nofun, loadedAfter]
  | command t =>
    simp only [loadedAfter]
    split_ifs with hreset hload
    · rw [instr_of_decodeInput_reset h hreset]
      exact resetCore_slot_loaded s' sl
    · obtain ⟨m, rfl⟩ := instr_of_decodeInput_load h hload
      obtain ⟨w, hw⟩ := stateAfter_loadInstr_slot (slotOfBit t.slot) sl m s'
      rw [hw]
      split_ifs with hsl
      · simp [hsl]
      · simp [Ne.symm hsl]
    · rw [hkept (fun _ ht => Input.command.inj ht ▸ hreset) (fun _ ht => Input.command.inj ht ▸ hload)]

/-- A step loads and unloads the slots as `loadedAfter` says of the input presented. -/
theorem step_slot_loaded {s t : State} {inp : Input} {rest : List Input} (hp : s.pending = inp :: rest)
    (h : step s = .next t) (sl : SlotId) : (t.slot sl).loaded = loadedAfter sl (s.slot sl).loaded inp := by
  rcases step_next h with ⟨hnil, -⟩ | ⟨inp', rest', i, hp', hdec, hexec⟩
  · exact absurd (hp.symm.trans hnil) (List.cons_ne_nil _ _)
  · obtain ⟨rfl, rfl⟩ := List.cons.inj (hp.symm.trans hp')
    obtain ⟨r, rfl⟩ := exec_next hexec
    rw [respond_slot, stateAfter_slot_loaded hdec]
    cases sl <;> rfl

/-- Settles O59: with an input pending, the contract says that it is accepted and what it leaves loaded, and the step
leaves exactly that loaded. -/
theorem stepKeepsTheResolverContract : Obligations.StepKeepsTheResolverContract := by
  intro s h
  cases hp : s.pending with
  | nil => exact ⟨s, step_idle hp, h⟩
  | cons inp rest =>
    rw [hp] at h
    obtain ⟨haccepts, hrest⟩ := keepsContract_cons h
    obtain ⟨t, ht⟩ := step_of_accepts hp haccepts
    refine ⟨t, ht, ?_⟩
    rw [← slot_b, ← slot_a, step_slot_loaded hp ht .b, step_slot_loaded hp ht .a, step_pending ht, hp]
    exact hrest

/-- Settles O30, by induction on the number of steps: each one completes and leaves a stream that keeps the contract. -/
theorem contractKeepingStreamsNeverStop : Obligations.ContractKeepingStreamsNeverStop := by
  intro s h k
  induction k generalizing s with
  | zero => exact ⟨s, run_zero s⟩
  | succ k ih =>
    obtain ⟨s', hs, h'⟩ := stepKeepsTheResolverContract s h
    obtain ⟨t, ht⟩ := ih s' h'
    exact ⟨t, (run_succ hs).trans ht⟩

end Sys2Proof.Machine
end

section
/-! PROOFS. Pop then push (44_sequencing_and_control.md R178), and the protocol of one instruction: NEXTWORD and two
LOADs in either order (R171, R173, R174). -/

namespace Sys2Proof.Machine

/-! ### Pop then push on one slot -/

/-- Settles O26: the push decrements what the pop incremented, so it stores to the cell the pop read. -/
theorem popThenPushOnOneSlotRewritesTheTop : Obligations.PopThenPushOnOneSlotRewritesTheTop := by
  intro sl v s hl hwf
  have hsp : decr (incr s.sp) = s.sp := decr_incr s.sp
  have hl' : ((s.popWord.2.respond (.word (s.mem.read (s.cellOf s.sp.toNat)))).slot sl).loaded = true := by
    cases sl <;> exact hl
  refine ⟨_, _, exec_getStk_of_loaded hl, exec_setStk_of_loaded hl' v, rfl, hsp, rfl, fun k => ?_⟩
  rw [respond_mem, read_pushWord (by exact hwf), respond_sp, popWord_sp, hsp]
  rfl

/-! ### LOAD of a descriptor -/

/-- `s` with the commands `rest` still to come and the result `r` returned. -/
def State.presenting (s : State) (rest : List Input) (r : Response) : State :=
  { s with pending := rest, response := r }

@[simp] theorem presenting_slot (s : State) (rest : List Input) (r : Response) (sl : SlotId) :
    (s.presenting rest r).slot sl = s.slot sl := by cases sl <;> rfl

@[simp] theorem presenting_presenting (s : State) (rest rest' : List Input) (r r' : Response) :
    (s.presenting rest r).presenting rest' r' = s.presenting rest' r' := rfl

/-- What LOAD of the descriptor `e` does, with or without an extra word (R110). `step_loadCmd` ties it to the step. -/
def State.latch (s : State) (sl : SlotId) (e : Desc) : State :=
  if needsExtra e then s.latchExtra sl e else s.latchPlain sl e

theorem latch_of_needsExtra {e : Desc} (h : needsExtra e = true) (s : State) (sl : SlotId) :
    s.latch sl e = s.latchExtra sl e := if_pos h

theorem latch_of_not_needsExtra {e : Desc} (h : needsExtra e = false) (s : State) (sl : SlotId) :
    s.latch sl e = s.latchPlain sl e := if_neg (Bool.eq_false_iff.mp h)

theorem extraWords_of_needsExtra {e : Desc} (h : needsExtra e = true) : Claims.extraWords e = 1 := if_pos h

theorem extraWords_of_not_needsExtra {e : Desc} (h : needsExtra e = false) : Claims.extraWords e = 0 :=
  if_neg (Bool.eq_false_iff.mp h)

/-- LOAD advances `pc` by one when it takes an extra word (R24, R110). -/
@[simp] theorem latch_pc (s : State) (sl : SlotId) (e : Desc) :
    (s.latch sl e).pc = s.pc + BitVec.ofNat 16 (Claims.extraWords e) := by
  cases h : needsExtra e with
  | true => simp [latch_of_needsExtra h, extraWords_of_needsExtra h, incr]
  | false => simp [latch_of_not_needsExtra h, extraWords_of_not_needsExtra h]

/-- LOAD counts a cycle when it takes an extra word (R110). -/
@[simp] theorem latch_cyc (s : State) (sl : SlotId) (e : Desc) :
    (s.latch sl e).cyc = s.cyc + Claims.extraWords e := by
  cases h : needsExtra e with
  | true => simp [latch_of_needsExtra h, extraWords_of_needsExtra h]
  | false => simp [latch_of_not_needsExtra h, extraWords_of_not_needsExtra h]

/-- LOAD writes its slot, `pc`, `cyc` and the counter of free values, and nothing else (R110). -/
theorem latch_frame (s : State) (sl : SlotId) (e : Desc) :
    s.latch sl e =
      { s with pc := (s.latch sl e).pc, cyc := (s.latch sl e).cyc, slotB := (s.latch sl e).slotB,
               slotA := (s.latch sl e).slotA, freeCount := (s.latch sl e).freeCount } := by
  unfold State.latch
  split <;> cases sl <;> rfl

@[simp] theorem latch_x (s : State) (sl : SlotId) (e : Desc) : (s.latch sl e).x = s.x := by rw [latch_frame]
@[simp] theorem latch_sp (s : State) (sl : SlotId) (e : Desc) : (s.latch sl e).sp = s.sp := by rw [latch_frame]
@[simp] theorem latch_ex (s : State) (sl : SlotId) (e : Desc) : (s.latch sl e).ex = s.ex := by rw [latch_frame]
@[simp] theorem latch_ia (s : State) (sl : SlotId) (e : Desc) : (s.latch sl e).ia = s.ia := by rw [latch_frame]
@[simp] theorem latch_mem (s : State) (sl : SlotId) (e : Desc) : (s.latch sl e).mem = s.mem := by rw [latch_frame]
@[simp] theorem latch_memSize (s : State) (sl : SlotId) (e : Desc) : (s.latch sl e).memSize = s.memSize := by
  rw [latch_frame]
  rfl

/-- LOAD neither reads nor writes the commands to come and the result port. -/
theorem latch_presenting (s : State) (sl : SlotId) (e : Desc) (rest : List Input) (r : Response) :
    (s.presenting rest r).latch sl e = (s.latch sl e).presenting rest r := by
  unfold State.latch
  split <;> cases sl <;> rfl

/-- LOAD leaves the other slot (R110). -/
theorem latch_slot_of_ne {sl i : SlotId} (h : i ≠ sl) (s : State) (e : Desc) :
    (s.latch sl e).slot i = s.slot i := by
  cases he : needsExtra e with
  | true => rw [latch_of_needsExtra he, latchExtra_slot, if_neg h]
  | false => rw [latch_of_not_needsExtra he, latchPlain_slot, if_neg h]

/-- LOAD leaves its slot loaded with the descriptor (R110). -/
theorem latch_enc? (s : State) (sl : SlotId) (e : Desc) : ((s.latch sl e).slot sl).enc? = some e := by
  cases he : needsExtra e with
  | true => rw [latch_of_needsExtra he, latchExtra_slot, if_pos rfl, enc?_of_loaded rfl]
  | false => rw [latch_of_not_needsExtra he, latchPlain_slot, if_pos rfl, enc?_of_loaded rfl]

/-- LOAD of a descriptor that takes an extra word latches the word `pc` designates (R110). -/
theorem latch_extra {e : Desc} (h : needsExtra e = true) (s : State) (sl : SlotId) :
    ((s.latch sl e).slot sl).hasExtra = true ∧
      ((s.latch sl e).slot sl).extra = s.mem.read (s.pc.toNat % s.memSize) := by
  rw [latch_of_needsExtra h, latchExtra_slot, if_pos rfl]
  exact ⟨rfl, rfl⟩

/-! ### The protocol of one instruction -/

/-- A step on a presented NEXTWORD is the fetch (R85). -/
theorem step_nextwordCmd {s : State} {rest : List Input} (h : s.pending = Claims.nextwordCmd :: rest) :
    step s = .next (s.nextWord.2.presenting rest (.word s.nextWord.1)) := by
  have hdec : s.decodeInput Claims.nextwordCmd = .ok .nextword := decode_encode_of_slotMode_none rfl _ _
  rw [step_cons h, hdec]
  rfl

/-- LOAD of a descriptor completes in the state it latches (R110). -/
theorem exec_loadInstr_classify (s : State) (sl : SlotId) (e : Desc) :
    exec (loadInstr sl (classify e)) s = answerNone (s.latch sl e) := by
  have htakes : (classify e).takesExtra = needsExtra e := by rw [Mode.takesExtra, desc_classify]
  cases h : needsExtra e with
  | true => rw [exec_loadInstr_extra (htakes.trans h), desc_classify, latch_of_needsExtra h]
  | false => rw [exec_loadInstr_plain (htakes.trans h), desc_classify, latch_of_not_needsExtra h]

/-- A step on a presented LOAD latches its descriptor (R110). -/
theorem step_loadCmd {s : State} {sl : SlotId} {e : Desc} {rest : List Input}
    (h : s.pending = Claims.loadCmd sl e :: rest) :
    step s = .next ((s.latch sl e).presenting rest .none) := by
  have hdec : s.decodeInput (Claims.loadCmd sl e) = .ok (loadInstr sl (classify e)) :=
    decode_encode_of_slotMode_none (slotMode_loadInstr _ _) _ _
  have hexec : exec (loadInstr sl (classify e)) (s.presenting rest s.response) =
      .next ((s.latch sl e).presenting rest .none) := by
    rw [exec_loadInstr_classify, latch_presenting]
    rfl
  rw [step_cons h, hdec]
  exact hexec

/-- The three steps of the protocol: the fetch, then the two LOADs in the order presented (R170). -/
theorem run_protocol {s : State} {f g : SlotId} {ef eg : Desc} {rest : List Input}
    (h : s.pending = Claims.nextwordCmd :: Claims.loadCmd f ef :: Claims.loadCmd g eg :: rest) :
    Host.Core.run core 3 s = .next (((s.nextWord.2.latch f ef).latch g eg).presenting rest .none) := by
  rw [run_succ (step_nextwordCmd h), run_succ (step_loadCmd rfl), latch_presenting, run_succ (step_loadCmd rfl),
    latch_presenting, latch_presenting, run_zero, presenting_presenting, presenting_presenting]

/-- The `pc` after the fetch and the first LOAD (R171). -/
theorem nextWord_latch_pc (s : State) (sl : SlotId) (e : Desc) :
    (s.nextWord.2.latch sl e).pc = s.pc + BitVec.ofNat 16 (1 + Claims.extraWords e) := by
  rw [latch_pc, nextWord_pc, incr, BitVec.ofNat_add, BitVec.add_assoc]
  rfl

/-- Settles O54: the fetch and each LOAD with an extra word move `pc` and `cyc` by one, and the LOAD of "a" leaves
what the LOAD of "b" latched. -/
theorem protocolAdvancesPcByTheInstructionLength : Obligations.ProtocolAdvancesPcByTheInstructionLength := by
  intro eb ea rest s h
  have hpc : ((s.nextWord.2.latch .b eb).latch .a ea).pc =
      BitVec.ofNat 16 (s.pc.toNat + (1 + Claims.extraWords eb + Claims.extraWords ea)) := by
    rw [latch_pc, nextWord_latch_pc, BitVec.add_assoc, ← BitVec.ofNat_add, BitVec.ofNat_add s.pc.toNat,
      BitVec.ofNat_toNat, BitVec.setWidth_eq]
  have hcyc : ((s.nextWord.2.latch .b eb).latch .a ea).cyc =
      s.cyc + (1 + Claims.extraWords eb + Claims.extraWords ea) := by
    rw [latch_cyc, latch_cyc, nextWord_cyc, Nat.add_assoc, Nat.add_assoc, Nat.add_assoc]
  have hslotB : (((s.nextWord.2.latch .b eb).latch .a ea).slot .b).enc? = some eb := by
    rw [latch_slot_of_ne (by decide), latch_enc?]
  refine ⟨_, _, run_protocol h, hpc, hcyc, hslotB, latch_enc? _ .a ea, ?_, ?_, ?_, ?_, ?_, rfl, exec_getpc _, rfl⟩
  all_goals simp [State.presenting]

/-- Settles O55: the second LOAD leaves the slot of the first, and each fetches at the `pc` it finds, which the first
has moved by one if it took an extra word. -/
theorem extraWordsGoToTheOperandsInLoadOrder : Obligations.ExtraWordsGoToTheOperandsInLoadOrder := by
  intro f g ef eg rest s hfg h word
  have hsecond (heg : needsExtra eg = true) :
      (((s.nextWord.2.latch f ef).latch g eg).slot g).hasExtra = true ∧
        (((s.nextWord.2.latch f ef).latch g eg).slot g).extra = word (1 + Claims.extraWords ef) := by
    have hextra := latch_extra heg (s.nextWord.2.latch f ef) g
    rwa [latch_mem, latch_memSize, nextWord_latch_pc] at hextra
  refine ⟨_, run_protocol h, fun hef => ?_, fun hef heg => ?_, fun hef heg => ?_⟩
  · rw [presenting_slot, latch_slot_of_ne hfg]
    exact latch_extra hef s.nextWord.2 f
  · rw [extraWords_of_needsExtra hef] at hsecond
    rw [presenting_slot]
    exact hsecond heg
  · rw [extraWords_of_not_needsExtra hef] at hsecond
    rw [presenting_slot]
    exact hsecond heg

end Sys2Proof.Machine
end

section
/-! PROOFS. An operand is sampled when GET or SET runs (44_sequencing_and_control.md R172): what LOAD put in a slot
outlives a GET of it and a write of a register, and the address is formed from the register as it then stands. -/

namespace Sys2Proof.Machine

/-! ### An operand loaded, and what keeps it -/

/-- In `u` slot `sl` holds an operand of mode `m` as a LOAD in `s` left it, with the memory of `s`. -/
structure OperandFrom (s : State) (sl : SlotId) (m : Mode) (u : State) : Prop where
  loaded : (u.slot sl).loaded = true
  extra : m.takesExtra = true → (u.slot sl).extra = s.mem.read (s.pc.toNat % s.memSize)
  mem : u.mem = s.mem
  memSize : u.memSize = s.memSize

/-- A slot whose descriptor the decoder sees is loaded. -/
theorem loaded_of_enc? {v : Slot} {e : Desc} (h : v.enc? = some e) : v.loaded = true := by
  cases hl : v.loaded with
  | true => rfl
  | false => cases (enc?_of_not_loaded hl).symm.trans h

/-- LOAD completes with its operand in the slot (R110). -/
theorem operandFrom_load (s : State) (sl : SlotId) (m : Mode) :
    ∃ t, exec (loadInstr sl m) s = .next t ∧ OperandFrom s sl m t := by
  have h := exec_loadInstr_classify s sl m.desc
  rw [classify_desc] at h
  refine ⟨_, h, ⟨?_, fun hm => ?_, latch_mem s sl m.desc, latch_memSize s sl m.desc⟩⟩
  · rw [respond_slot]
    exact loaded_of_enc? (latch_enc? s sl m.desc)
  · rw [respond_slot]
    exact (latch_extra hm s sl).2

/-- `j` completes in every state with both slots and memory as before, and after it `R` holds. -/
def WritesRegister (j : Instr) (R : State → Prop) : Prop :=
  ∀ t, ∃ u, exec j t = .next u ∧ (∀ sl, u.slot sl = t.slot sl) ∧ u.mem = t.mem ∧ u.memSize = t.memSize ∧ R u

theorem writesRegister_wrreg (r : RegIdx) (v : Int) : WritesRegister (.wrreg r v) (·.reg r = norm16 v) :=
  fun t => ⟨_, exec_wrreg r v t, fun sl => by cases sl <;> rfl, rfl, rfl, (reg_setReg t r r v).trans (if_pos rfl)⟩

theorem writesRegister_setsp (v : Int) : WritesRegister (.setsp v) (·.sp = norm16 v) :=
  fun t => ⟨_, exec_setsp v t, fun sl => by cases sl <;> rfl, rfl, rfl, rfl⟩

theorem writesRegister_setpc (v : Int) : WritesRegister (.setpc v) (·.pc = norm16 v) :=
  fun t => ⟨_, exec_setpc v t, fun sl => by cases sl <;> rfl, rfl, rfl, rfl⟩

theorem writesRegister_setex (v : Int) : WritesRegister (.setex v) (·.ex = norm16 v) :=
  fun t => ⟨_, exec_setex v t, fun sl => by cases sl <;> rfl, rfl, rfl, rfl⟩

theorem getInstr_ne_loadInstr (sl sl' : SlotId) (m m' : Mode) : getInstr sl m ≠ loadInstr sl' m' := by
  intro h
  have hmode := congrArg Instr.slotMode h
  rw [slotMode_getInstr, slotMode_loadInstr] at hmode
  cases hmode

theorem storeCell_getInstr (sl : SlotId) (m : Mode) (s : State) : Claims.storeCell (getInstr sl m) s = none := by
  cases m <;> rfl

section
variable {s t u : State} {sl : SlotId} {m : Mode}

/-- An operand is held as long as its slot, memory and MEMSIZE stay. -/
theorem OperandFrom.of_same (ht : OperandFrom s sl m t) (hslot : u.slot sl = t.slot sl) (hmem : u.mem = t.mem)
    (hsize : u.memSize = t.memSize) : OperandFrom s sl m u where
  loaded := hslot ▸ ht.loaded
  extra hm := hslot ▸ ht.extra hm
  mem := hmem.trans ht.mem
  memSize := hsize.trans ht.memSize

/-- A write of a register leaves the operand (R33). -/
theorem OperandFrom.writesRegister {j : Instr} {R : State → Prop} (ht : OperandFrom s sl m t)
    (hj : WritesRegister j R) : ∃ u, exec j t = .next u ∧ OperandFrom s sl m u ∧ R u := by
  obtain ⟨u, hu, hslot, hmem, hsize, hR⟩ := hj t
  exact ⟨u, hu, ht.of_same (hslot sl) hmem hsize, hR⟩

/-- GET of the operand completes and leaves it (R130). -/
theorem OperandFrom.get (ht : OperandFrom s sl m t) :
    ∃ u, exec (getInstr sl m) t = .next u ∧ OperandFrom s sl m u := by
  have hreset := getInstr_ne_reset sl m
  obtain ⟨r, hr⟩ := exec_completes (i := getInstr sl m) (s := t) fun sl' m' h => by
    rw [slotMode_getInstr] at h
    cases h
    exact ht.loaded
  refine ⟨_, hr, ht.of_same ?_ ?_ ?_⟩
  · rw [respond_slot, stateAfter_slot_of_not_load hreset (getInstr_ne_loadInstr sl · m ·)]
  · rw [respond_mem, stateAfter_mem_of_not_store hreset (storeCell_getInstr sl m t)]
  · rw [respond_memSize, memSize_eq_of_params (stateAfter_params_pending _ t).1]

/-- A GET of the operand that is one access returns a word of the memory of `s`. -/
theorem OperandFrom.returns {addr : Slot → Nat} {k : Nat} (hu : OperandFrom s sl m u)
    (h : exec (getInstr sl m) u = u.withLoaded sl fun v => answerWord (u.memRead (addr v)))
    (haddr : addr (u.slot sl) = k) :
    ∃ sp n, Claims.Returns (getInstr sl m) u sp n (s.mem.read (k % s.memSize)) := by
  rw [← haddr, ← hu.mem, ← hu.memSize]
  exact ⟨_, _, returns_of_withLoaded_memRead hu.loaded h⟩

/-- A SET of the operand that is one store changes the one cell its address reaches. -/
theorem OperandFrom.stores {addr : Slot → Nat} {k : Nat} {x : Int} (hu : OperandFrom s sl m u)
    (hwf : s.mem.wf = true)
    (h : exec (setInstr sl x m) u = u.withLoaded sl fun v => answerNone (u.memWrite (addr v) x))
    (haddr : addr (u.slot sl) = k) : ∃ sp, Claims.Stores (setInstr sl x m) u sp k x := by
  rw [← hu.mem] at hwf
  rw [← haddr]
  exact ⟨_, stores_of_withLoaded_memWrite hu.loaded hwf h⟩

/-- The address of mode IDX: the register as it stands and the word latched by LOAD (R68). -/
theorem OperandFrom.idxAddr {r : RegIdx} {v : Int} (hu : OperandFrom s sl (.idx r) u) (hr : u.reg r = norm16 v) :
    u.idxAddr r (u.slot sl).extra = (norm16 v).toNat + (s.mem.read (s.pc.toNat % s.memSize)).toNat := by
  rw [State.idxAddr, hr, hu.extra (takesExtra_idx r)]

/-- The address of mode PICK: `sp` as it stands and the word latched by LOAD (R71). -/
theorem OperandFrom.pickAddr {v : Int} (hu : OperandFrom s sl .pick u) (hsp : u.sp = norm16 v) :
    u.pickAddr (u.slot sl).extra = (norm16 v).toNat + (s.mem.read (s.pc.toNat % s.memSize)).toNat := by
  rw [State.pickAddr, State.peekAddress, hsp, hu.extra rfl]

/-- GET in mode STK returns the word at `sp` as it stands (R134). -/
theorem OperandFrom.returns_stk {v : Int} (hu : OperandFrom s sl .stk u) (hsp : u.sp = norm16 v) :
    ∃ sp n, Claims.Returns (.getStk sl) u sp n (s.mem.read ((norm16 v).toNat % s.memSize)) := by
  rw [← hsp, ← hu.mem, ← hu.memSize]
  exact ⟨_, _, getOfStackModePops sl u hu.loaded⟩

/-- SET in mode STK stores one below `sp` as it stands, modulo 65536 (R154, decision D7). -/
theorem OperandFrom.stores_stk {v x : Int} (hu : OperandFrom s sl .stk u) (hwf : s.mem.wf = true)
    (hsp : u.sp = norm16 v) :
    ∃ sp, Claims.Stores (.setStk sl x) u sp (((norm16 v).toNat + 65535) % 65536) x := by
  rw [← hu.mem] at hwf
  have htop : (BitVec.ofNat 16 (u.sp.toNat + 65535)).toNat = (u.sp.toNat + 65535) % 65536 :=
    BitVec.toNat_ofNat _ 16
  rw [← hsp, ← htop]
  exact ⟨_, setOfStackModePushes sl x u hu.loaded hwf⟩

end

/-! ### LOAD, a write of a register, and GET or SET -/

/-- Instructions that complete run on from the state the first ends in. -/
theorem runInstrs_of_next {i : Instr} {is : List Instr} {s t : State} (h : exec i s = .next t) :
    Claims.runInstrs (i :: is) s = Claims.runInstrs is t := by
  rw [Claims.runInstrs, h]

/-- GET after LOAD and a write of a register returns what it returns wherever the operand is held and the register is
as written. -/
theorem endsReturning_of_sampled {s : State} {sl : SlotId} {m : Mode} {j : Instr} {R : State → Prop} {w : Word}
    (hj : WritesRegister j R)
    (hget : ∀ u, OperandFrom s sl m u → R u → ∃ sp n, Claims.Returns (getInstr sl m) u sp n w) :
    Claims.EndsReturning [loadInstr sl m, j, getInstr sl m] s w := by
  obtain ⟨t, hload, ht⟩ := operandFrom_load s sl m
  obtain ⟨u, hwrite, hu, hR⟩ := ht.writesRegister hj
  obtain ⟨sp, n, hw⟩ := hget u hu hR
  exact ⟨_, (runInstrs_of_next hload).trans ((runInstrs_of_next hwrite).trans (runInstrs_of_next hw)), rfl⟩

/-- SET after LOAD, GET and a write of a register stores where it stores wherever the operand is held and the register
is as written. -/
theorem endsStoring_of_sampled {s : State} {sl : SlotId} {m : Mode} {j : Instr} {R : State → Prop} {addr : Nat}
    {x : Int} (hj : WritesRegister j R)
    (hset : ∀ u, OperandFrom s sl m u → R u → ∃ sp, Claims.Stores (setInstr sl x m) u sp addr x) :
    Claims.EndsStoring [loadInstr sl m, getInstr sl m, j, setInstr sl x m] s addr x := by
  obtain ⟨t, hload, ht⟩ := operandFrom_load s sl m
  obtain ⟨t', hget, ht'⟩ := ht.get
  obtain ⟨u, hwrite, hu, hR⟩ := ht'.writesRegister hj
  obtain ⟨sp, u', hstore, -, hread⟩ := hset u hu hR
  rw [hu.mem, hu.memSize] at hread
  exact ⟨u', (runInstrs_of_next hload).trans ((runInstrs_of_next hget).trans ((runInstrs_of_next hwrite).trans
    (runInstrs_of_next hstore))), hread⟩

/-- Settles O57: each operand is held over the write of its register, and the mode's own meaning is then read off in
the state after the write. -/
theorem operandStateIsSampledWhenGetRuns : Obligations.OperandStateIsSampledWhenGetRuns := by
  intro sl r v x s a w
  have hreg := writesRegister_wrreg r v
  have hsp := writesRegister_setsp v
  refine ⟨⟨?_, ?_, ?_, ?_, ?_, ?_, ?_, ?_, ?_⟩, fun hwf => ⟨?_, ?_, ?_, ?_, ?_⟩⟩
  · exact endsReturning_of_sampled (m := .reg r) hreg fun u hu hR =>
      ⟨_, _, hR ▸ returns_of_withLoaded_answerWord hu.loaded (exec_getReg sl r u)⟩
  · exact endsReturning_of_sampled (m := .ind r) hreg fun u hu hR =>
      hu.returns (exec_getInd sl r u) (congrArg BitVec.toNat hR)
  · exact endsReturning_of_sampled (m := .idx r) hreg fun u hu hR => hu.returns (exec_getIdx sl r u) (hu.idxAddr hR)
  · exact endsReturning_of_sampled (m := .stk) hsp fun u hu hR => hu.returns_stk hR
  · exact endsReturning_of_sampled (m := .peek) hsp fun u hu hR =>
      hu.returns (exec_getPeek sl u) (congrArg BitVec.toNat hR)
  · exact endsReturning_of_sampled (m := .pick) hsp fun u hu hR => hu.returns (exec_getPick sl u) (hu.pickAddr hR)
  · exact endsReturning_of_sampled (m := .spd) hsp fun u hu hR =>
      ⟨_, _, hR ▸ returns_of_withLoaded_answerWord hu.loaded (exec_getSpd sl u)⟩
  · exact endsReturning_of_sampled (m := .pcd) (writesRegister_setpc v) fun u hu hR =>
      ⟨_, _, hR ▸ returns_of_withLoaded_answerWord hu.loaded (exec_getPcd sl u)⟩
  · exact endsReturning_of_sampled (m := .exd) (writesRegister_setex v) fun u hu hR =>
      ⟨_, _, hR ▸ returns_of_withLoaded_answerWord hu.loaded (exec_getExd sl u)⟩
  · exact endsStoring_of_sampled (m := .ind r) hreg fun u hu hR =>
      hu.stores hwf (exec_setInd sl r x u) (congrArg BitVec.toNat hR)
  · exact endsStoring_of_sampled (m := .idx r) hreg fun u hu hR =>
      hu.stores hwf (exec_setIdx sl r x u) (hu.idxAddr hR)
  · exact endsStoring_of_sampled (m := .stk) hsp fun u hu hR => hu.stores_stk hwf hR
  · exact endsStoring_of_sampled (m := .peek) hsp fun u hu hR =>
      hu.stores hwf (exec_setPeek sl x u) (congrArg BitVec.toNat hR)
  · exact endsStoring_of_sampled (m := .pick) hsp fun u hu hR =>
      hu.stores hwf (exec_setPick sl x u) (hu.pickAddr hR)

end Sys2Proof.Machine
end

section
/-! PROOFS. The two refusals (60_exceptions.md R200, R201): GET or SET on an unloaded slot, run or presented, and a
transaction with an unassigned code. -/

namespace Sys2Proof.Machine

/-- An instruction that reads the mode of an unloaded slot stops at its loaded test (R201). -/
theorem exec_of_unloaded {i : Instr} {sl : SlotId} {m : Mode} {s : State} (hm : i.slotMode = some (sl, m))
    (h : (s.slot sl).loaded = false) : exec i s = .refused (.unloadedSlot sl) := by
  obtain ⟨r, hr⟩ := exec_of_slotMode_some hm s
  rw [hr, withLoaded_of_not_loaded h]

/-- A presented input that does not decode stops the step, with the refusal of its error (R200, R201). -/
theorem step_of_decodeInput_error {inp : Input} {rest : List Input} {s : State} {e : DecodeError}
    (hp : s.pending = inp :: rest) (h : s.decodeInput inp = .error e) : step s = .refused (refusalOf e) := by
  rw [step_cons hp, h]

/-- A presented GET or SET that finds its slot unloaded is refused: it decodes to no instruction (R201). -/
theorem step_of_unloaded {t : Transaction} {rest : List Input} {s : State} (hp : s.pending = .command t :: rest)
    (ht : t.encFromSlot = true) (h : (s.slot (slotOfBit t.slot)).loaded = false) :
    step s = .refused (.unloadedSlot (slotOfBit t.slot)) :=
  step_of_decodeInput_error hp (decodeInput_of_unloaded ht h)

/-- Settles O27: run, the instruction stops at the loaded test of its slot; presented, it does not decode. -/
theorem getAndSetOnUnloadedSlotAreRefused : Obligations.GetAndSetOnUnloadedSlotAreRefused := by
  intro sl v m s hl
  refine ⟨exec_of_unloaded (slotMode_getInstr sl m) hl, exec_of_unloaded (slotMode_setInstr sl v m) hl,
    fun rest hp => ?_⟩
  rw [← slotOfBit_bit sl] at hl ⊢
  obtain hget | hset := hp
  · exact step_of_unloaded hget rfl hl
  · exact step_of_unloaded hset rfl hl

/-- Settles O28: an unassigned code is neither GET's nor SET's, so no slot is looked at and the code alone is why the
transaction does not decode. -/
theorem unassignedCommandCodesAreRefused : Obligations.UnassignedCommandCodesAreRefused := by
  intro t rest s hp hc
  have hslot : t.encFromSlot = true → (s.slot (slotOfBit t.slot)).loaded = true := fun ht => by
    rcases encFromSlot_iff.mp ht with hget | hset <;> omega
  obtain ⟨e, he⟩ := decodeInput_command hslot
  exact step_of_decodeInput_error hp (he.trans (decodeSelector_of_unassigned hc e))

end Sys2Proof.Machine
end

section
/-! PROOFS. RESET and the cycle costs (70_reset_and_hazards.md R210, R221). -/

namespace Sys2Proof.Machine

/-- The accesses of the table of R221 cost one cycle each, and no command makes two. -/
theorem cycCost_le_one (i : Instr) : cycCost i ≤ 1 := by
  cases i with
  | rdmem | wrmem | nextword | loadIdx | loadPick | loadAbs | loadImm | getInd | getIdx | getStk | getPeek | getPick
  | getAbs | setInd | setIdx | setStk | setPeek | setPick | setAbs => exact Nat.le_refl 1
  | _ => exact Nat.zero_le 1

/-- Settles O47: RESET puts `cyc` to 0, and any other instruction that completes has added its cost. -/
theorem cycGrowsByTheCostTable : Obligations.CycGrowsByTheCostTable := by
  intro i s t h
  obtain ⟨r, rfl⟩ := exec_next h
  refine ⟨?_, cycCost_le_one i⟩
  rw [respond_cyc]
  split
  · subst i
    exact resetCore_cyc s
  · next hreset => exact stateAfter_cyc hreset s

/-- Settles O31: what RESET leaves open is the content of the two slots it unloads and the count of free values. -/
theorem resetRestoresEveryField : Obligations.ResetRestoresEveryField :=
  fun s => ⟨_, exec_reset s, rfl, resetCore_slot_loaded s .b, resetCore_slot_loaded s .a⟩

end Sys2Proof.Machine
end
